-- ==== Sys2Proof/Word.lean ====
section
/-! DEFINITION. The words of the block: command bytes, pulse durations, colour words, pulse trains. -/

namespace Sys2Proof

/-- A decoded byte of a frame or a command code: 8 bits (R76, R78). -/
abbrev Byte := BitVec 8

/-- One duration of a pulse train: unsigned 16 bits, unit 1 microsecond (R51, `PULSE_BITS` of R5). -/
abbrev Pulse := BitVec 16

/-- A pulse train `P[0], P[1], …`, first pulse first (R51, R71). -/
abbrev Train := List Pulse

/-- A colour word: 24 bits, red 23:16, green 15:8, blue 7:0 (R58). -/
abbrev Pixel := BitVec 24

/-- The blank colour 0x000000 (R58). -/
abbrev blankPixel : Pixel := 0

end Sys2Proof
end

