-- ==== Sys2Proof/Config.lean ====
section
/-! DEFINITION. The configuration record of R5, the constants R6 calls not tunable, and the free draws of R8. -/

namespace Sys2Proof

/-- `STEP_COUNT`: steps per palette (R5; not tunable, R6). -/
abbrev stepCount : Nat := 8

/-- `PERIOD_UNITS` = 2 * (STEP_COUNT - 1): the waveform's period in time units (R5; not tunable, R6). -/
abbrev periodUnits : Nat := 14

/-- `SPEED_TIER_COUNT` (R5; not tunable, R6). -/
abbrev speedTierCount : Nat := 5

/-- `DATA_BITS`: bits decoded from one frame (R5; not tunable, R6). -/
abbrev dataBits : Nat := 32

/-- The animation mode: 0 = Pulse, 1 = MovingPulse (R22). -/
inductive Mode where
  | pulse
  | movingPulse
deriving DecidableEq, Repr

/-- A pulse window, a `_MIN`/`_MAX` pair in microseconds, both ends included (R73). -/
structure Window where
  min : Nat
  max : Nat
deriving DecidableEq, Repr

/-- The configuration of R5, one immutable record (log 3: what is a constant of the model instead). Its OPEN parameters
have no value in the spec (D30, D7); a statement about every state holds for every value of them. -/
structure Config where
  /-- `PALETTE_COUNT`, OPEN. -/
  paletteCount : Nat
  /-- `PALROM`: one row of exactly 8 colour words a palette, contents OPEN (R37, R182). -/
  palrom : List (Vector Pixel stepCount)
  /-- `SPEED_TICKS[0..4]`: tier 2 is 100 in a well-formed record (R5, R34), the other four are OPEN (R36, D30). -/
  speedTicks : Vector Nat speedTierCount
  /-- `PIXEL_COUNT`, OPEN. -/
  pixelCount : Nat
  /-- `MIN_PULSES`. -/
  minPulses : Nat := 60
  /-- `MAX_PULSES`. -/
  maxPulses : Nat := 70
  /-- `CAPTURE_MAX`, OPEN, at least `MAX_PULSES + 1` in a well-formed record (R5, D7). -/
  captureMax : Nat
  /-- `CODE_COLOR`, OPEN. -/
  codeColor : Byte
  /-- `CODE_ANIM`, OPEN. -/
  codeAnim : Byte
  /-- `CODE_SPEED`, OPEN. -/
  codeSpeed : Byte
  /-- `CODE_OFF`, OPEN. -/
  codeOff : Byte
  /-- `CODE_ON`, OPEN. -/
  codeOn : Byte
  leaderMark : Window := ⟨6750, 11250⟩
  leaderSpace : Window := ⟨3375, 5625⟩
  repeatSpace : Window := ⟨1687, 2812⟩
  bitMark : Window := ⟨422, 703⟩
  space0 : Window := ⟨422, 703⟩
  space1 : Window := ⟨1266, 2109⟩
  /-- `POLL_MAX` in ms: timing only, no rule reads it (R5, R152). -/
  pollMax : Nat := 100
  /-- `RESET_PAL`. -/
  resetPal : Nat := 0
  /-- `RESET_MODE`. -/
  resetMode : Mode := .pulse
  /-- `RESET_SPD`, below 5 by its type. -/
  resetSpd : Fin speedTierCount := 0
  /-- `RESET_PWR`. -/
  resetPwr : Bool := true
deriving DecidableEq, Repr

/-- The five bound command codes (R5, R35). -/
def Config.codes (c : Config) : List Byte :=
  [c.codeColor, c.codeAnim, c.codeSpeed, c.codeOff, c.codeOn]

/-- The six pulse windows (R73). -/
def Config.windows (c : Config) : List Window :=
  [c.leaderMark, c.leaderSpace, c.repeatSpace, c.bitMark, c.space0, c.space1]

/-- One row of TC1's palette ROM: `((p + 1) << 16) | (s + 1)` (95_test_vectors.md section 2). -/
def Config.tc1Row (p : Nat) : Vector Pixel stepCount :=
  Vector.ofFn fun s => BitVec.ofNat 24 ((p + 1) * 65536 + (s.val + 1))

/-- The configuration of `State.reset`. DESIGN CHOICE (log 1, unsafe): the spec gives the OPEN parameters
no value; these are the values of its test configuration TC1 (95_test_vectors.md section 2), and
`CAPTURE_MAX` 256, which TC1 leaves open. Everything else is R5's default. -/
def Config.tc1 : Config where
  paletteCount := 3
  palrom := [Config.tc1Row 0, Config.tc1Row 1, Config.tc1Row 2]
  speedTicks := #v[400, 200, 100, 50, 25]
  pixelCount := 4
  captureMax := 256
  codeColor := 0x10
  codeAnim := 0x11
  codeSpeed := 0x12
  codeOff := 0x13
  codeOn := 0x14

/-- Free value: the ticks that pass before a `TimeRead()` when the clock's script has run out, by the number of
the draw (R8(b), U5; log 6). No body: any natural. -/
opaque Config.freeTicks : Nat → Nat

/-- Free value: the pulses captured before a `CapRead()` when the receiver's script has run out, by the number of
the draw (R8(a), U4; log 7). No body: any train. -/
opaque Config.freeArrivals : Nat → Train

end Sys2Proof
end

