-- ==== Sys2Proof/Syntax.lean ====
section
/-! DEFINITION. The instructions: one constructor per row of spec/opcode_table.json, and the three coded forms
they take (command byte, pulse train, sequencer word). -/

namespace Sys2Proof

/-- One constructor per row of spec/opcode_table.json. -/
inductive Instr where
  /-- COLOR, command role (R111). -/
  | color
  /-- ANIM, command role (R112). -/
  | anim
  /-- SPEED, command role (R113). -/
  | speed
  /-- OFF, command role (R114). -/
  | off
  /-- ON, command role (R115). -/
  | on
  /-- NOP, command role: any other command byte `c` (R116). -/
  | nop (c : Byte)
  /-- FRAME: a well-formed full frame with its four bytes `B[0..3]` (R76, R90). -/
  | frame (b0 b1 b2 b3 : Byte)
  /-- REPEAT: a pulse train with the repeat header (R77, R92). -/
  | repeatCode (p : Train)
  /-- ILLEGAL_TRAIN: every other pulse train (R81, R90). -/
  | illegalTrain (p : Train)
  /-- RENDER_ALL, `SEQ` = 0 (R146). -/
  | renderAll
  /-- POLL, `SEQ` = 1 (R147, R148). -/
  | poll
  /-- APPLY, `SEQ` = 2 (R149). -/
  | apply
  /-- FLUSH, `SEQ` = 3 (R150). -/
  | flush
  /-- RENDER of pixel `i`, the per-pixel function, not encoded (R134). -/
  | render (i : Nat)
deriving DecidableEq, Repr

/-- The sequencer register `SEQ`: which operation runs next (R27; a four-constructor type is allowed there). -/
inductive SeqOp where
  | renderAll
  | poll
  | apply
  | flush
deriving DecidableEq, Repr

/-- The six command roles (R78). -/
inductive Role where
  | color
  | anim
  | speed
  | off
  | on
  | nop
deriving DecidableEq, Repr

/-- A coded instruction: the three formats of the opcode table that have an encoding. -/
inductive Code where
  /-- SEQ2: the value of the 2-bit register `SEQ` (R84). -/
  | seq2 (w : BitVec 2)
  /-- CMD8: a command byte (R78). -/
  | cmd8 (b : Byte)
  /-- NEC32, NECRPT and PULSETRAIN: a pulse train (R70 to R77, R81). -/
  | train (p : Train)
deriving DecidableEq, Repr

end Sys2Proof
end

