-- ==== Sys2Proof/WellFormed.lean ====
section
/-! DEFINITION. When a configuration is well formed (R6) and when an instruction is one that a configuration can
code. The pulse-train conditions are written on the indices `P[k]` of the spec's tables (R72, R77, R81), apart from
the decoder's own stages. -/

namespace Sys2Proof

/-- `InWin(v, X)`: both ends included (R73). -/
abbrev Window.Contains (w : Window) (v : Pulse) : Prop := w.min ≤ v.toNat ∧ v.toNat ≤ w.max

/-- `*_MIN <= *_MAX <= 65535` (R6). -/
abbrev Window.Legal (w : Window) : Prop := w.min ≤ w.max ∧ w.max ≤ 65535

/-- The two intervals do not meet (R6; for legal windows). -/
abbrev Window.Disjoint (a b : Window) : Prop := a.max < b.min ∨ b.max < a.min

/-- A well-formed configuration: R6's list, with what R5 and R34 ask of the record's values besides: `SPEED_TICKS[2]` = 100
(D30 opens the other four tiers only), `CAPTURE_MAX >= MAX_PULSES + 1` (D7), one PALROM row a palette (R182; log 2). -/
abbrev Config.WF (c : Config) : Prop :=
  1 ≤ c.paletteCount ∧
  c.palrom.length = c.paletteCount ∧
  1 ≤ c.pixelCount ∧
  ((∀ k : Fin speedTierCount, 1 ≤ c.speedTicks[k]) ∧ c.speedTicks[2] = 100) ∧
  (c.minPulses ≤ c.maxPulses ∧ c.maxPulses + 1 ≤ c.captureMax) ∧
  c.codes.Nodup ∧
  (∀ w ∈ c.windows, w.Legal) ∧
  c.repeatSpace.Disjoint c.leaderSpace ∧
  c.space0.Disjoint c.space1 ∧
  c.resetPal < c.paletteCount

namespace Train

/-- `P[k]`; read only below the train's length (R59). -/
abbrev pulseAt (p : Train) (k : Nat) : Pulse := p.getD k 0

/-- Length inside the window (R83). -/
abbrev LengthOk (c : Config) (p : Train) : Prop := c.minPulses ≤ p.length ∧ p.length ≤ c.maxPulses

/-- The repeat header (R77). -/
abbrev RepeatHeader (c : Config) (p : Train) : Prop :=
  2 ≤ p.length ∧ c.leaderMark.Contains (pulseAt p 0) ∧ c.repeatSpace.Contains (pulseAt p 1)

/-- The header of a full frame (R72). -/
abbrev FullHeader (c : Config) (p : Train) : Prop :=
  2 ≤ p.length ∧ c.leaderMark.Contains (pulseAt p 0) ∧ c.leaderSpace.Contains (pulseAt p 1)

/-- Bit cell `k` is the pair (`P[2+2k]`, `P[3+2k]`) and is valid (R74). -/
abbrev CellOk (c : Config) (p : Train) (k : Nat) : Prop :=
  c.bitMark.Contains (pulseAt p (2 + 2 * k)) ∧
    (c.space0.Contains (pulseAt p (3 + 2 * k)) ∨ c.space1.Contains (pulseAt p (3 + 2 * k)))

/-- A train that carries a full frame (R72, R98). -/
abbrev FullFrame (c : Config) (p : Train) : Prop :=
  LengthOk c p ∧ 66 ≤ p.length ∧ FullHeader c p ∧ ∀ k < dataBits, CellOk c p k

end Train

/-- The nominal durations of R72 lie in the configuration's windows and 67 pulses in its length window: then the
canonical frame of R86 is a full frame. -/
abbrev Config.CarriesCanonical (c : Config) : Prop :=
  (c.minPulses ≤ 67 ∧ 67 ≤ c.maxPulses) ∧
  c.leaderMark.Contains 9000 ∧ c.leaderSpace.Contains 4500 ∧ c.bitMark.Contains 562 ∧
  c.space0.Contains 562 ∧ c.space1.Contains 1687

/-- An instruction that the configuration can code: NOP carries an unbound byte (R78), a frame needs the canonical
frame to be one (R86), REPEAT and ILLEGAL_TRAIN carry a train of their class (R77, R81). -/
def Instr.WF (c : Config) : Instr → Prop
  | .color => True
  | .anim => True
  | .speed => True
  | .off => True
  | .on => True
  | .nop b => b ∉ c.codes
  | .frame _ _ _ _ => c.CarriesCanonical
  | .repeatCode p => Train.LengthOk c p ∧ Train.RepeatHeader c p
  | .illegalTrain p => ¬ Train.LengthOk c p ∨ (¬ Train.RepeatHeader c p ∧ ¬ Train.FullFrame c p)
  | .renderAll => True
  | .poll => True
  | .apply => True
  | .flush => True
  | .render _ => True

end Sys2Proof
end

