-- ==== Sys2Proof/Decode.lean ====
section
/-! DEFINITION. The decoder, total at each of its three levels (pulse train, command byte, sequencer word), the
numbering of the opcode table's words, and after it the encoder. -/

namespace Sys2Proof

/-! ## The pulse-train decoder (R90 to R97) -/

/-- `InWin(v, X) := X_MIN <= v <= X_MAX` (R73). -/
def inWin (v : Pulse) (w : Window) : Bool := decide (w.min ≤ v.toNat) && decide (v.toNat ≤ w.max)

/-- `VALIDATE(n)` (R91). -/
def validate (c : Config) (n : Nat) : Bool := decide (c.minPulses ≤ n) && decide (n ≤ c.maxPulses)

/-- `IsRepeat(n, P)`; the pattern is the guard `n >= 2` (R92). -/
def isRepeat (c : Config) : Train → Bool
  | p0 :: p1 :: _ => inWin p0 c.leaderMark && inWin p1 c.repeatSpace
  | _ => false

/-- `IsFullHeader(n, P)`; the pattern is the guard `n >= 2` (R93). -/
def isFullHeader (c : Config) : Train → Bool
  | p0 :: p1 :: _ => inWin p0 c.leaderMark && inWin p1 c.leaderSpace
  | _ => false

/-- The pulses a full frame needs: 2 header pulses and 32 cells of 2 (R94). -/
def framePulses : Nat := 2 + 2 * dataBits

/-- `Cell(m, s)`; none is `Invalid` (R95). -/
def cell (c : Config) (m s : Pulse) : Option Bool :=
  if inWin m c.bitMark then
    if inWin s c.space0 then some false
    else if inWin s c.space1 then some true
    else none
  else none

/-- The first `k` cells of what follows the header, first-arrived first; none when one is invalid (R90, R95). -/
def cells (c : Config) : Nat → Train → Option (List Bool)
  | 0, _ => some []
  | k + 1, m :: s :: rest =>
    match cell c m s, cells c k rest with
    | some b, some bs => some (b :: bs)
    | _, _ => none
  | _ + 1, _ => none

/-- The sum of `b[k] * 2^k`: the first bit is the least significant (R75, R96). -/
def bitsToNat : List Bool → Nat
  | [] => 0
  | b :: bs => b.toNat + 2 * bitsToNat bs

/-- `B[j]`: cells `8j .. 8j+7`, least significant bit first (R96). -/
def byteAt (bs : List Bool) (j : Nat) : Byte := BitVec.ofNat 8 (bitsToNat ((bs.drop (8 * j)).take 8))

/-- The row of the opcode table a pulse train is, in the order LEN, REPEAT, FORMAT of R90 (R166; log 20). -/
def decodeTrain (c : Config) (p : Train) : Instr :=
  if validate c p.length then
    if isRepeat c p then .repeatCode p
    else if isFullHeader c p && decide (framePulses ≤ p.length) then
      match cells c dataBits (p.drop 2) with
      | some bs => .frame (byteAt bs 0) (byteAt bs 1) (byteAt bs 2) (byteAt bs 3)
      | none => .illegalTrain p
    else .illegalTrain p
  else .illegalTrain p

/-- What DECODE returns for a train of this row: `Command(B[2])` for a frame, else `NoCommand` (R97, R81). -/
def commandOf : Instr → Option Byte
  | .frame _ _ b2 _ => some b2
  | _ => none

/-- `DECODE(n, P)`: `some c` is `Command(c)`, `none` is `NoCommand` (R90). -/
def decode (c : Config) (p : Train) : Option Byte := commandOf (decodeTrain c p)

/-- The cause labels of R161; no later step depends on one. -/
inductive Cause where
  | len
  | repeatHeader
  | format
deriving DecidableEq, Repr

/-- The label of the first failing test, none for a train that decodes to a command (R161, R166). -/
def causeOf (c : Config) (p : Train) : Option Cause :=
  if validate c p.length then
    if isRepeat c p then some .repeatHeader
    else if (decode c p).isSome then none
    else some .format
  else some .len

/-! ## The command discriminator (R78, R110) -/

/-- The role a command byte selects (R78, R110). -/
def roleOf (c : Config) (b : Byte) : Role :=
  if b = c.codeColor then .color
  else if b = c.codeAnim then .anim
  else if b = c.codeSpeed then .speed
  else if b = c.codeOff then .off
  else if b = c.codeOn then .on
  else .nop

/-- The row of the opcode table a command byte is. -/
def decodeCommand (c : Config) (b : Byte) : Instr :=
  match roleOf c b with
  | .color => .color
  | .anim => .anim
  | .speed => .speed
  | .off => .off
  | .on => .on
  | .nop => .nop b

/-! ## The sequencer word (R84) -/

/-- The operation of a `SEQ` value (R84: all four values are used). -/
def SeqOp.ofBits (w : BitVec 2) : SeqOp :=
  if w = 0 then .renderAll else if w = 1 then .poll else if w = 2 then .apply else .flush

/-- The `SEQ` value of an operation (R84). -/
def SeqOp.toBits : SeqOp → BitVec 2
  | .renderAll => 0
  | .poll => 1
  | .apply => 2
  | .flush => 3

/-- The row of the opcode table an operation is (R84). -/
def SeqOp.instr : SeqOp → Instr
  | .renderAll => .renderAll
  | .poll => .poll
  | .apply => .apply
  | .flush => .flush

/-- The decoder over the three coded forms: total, since R80, R81 and R84 leave no word without a row. -/
def decodeCode (c : Config) : Code → Instr
  | .seq2 w => (SeqOp.ofBits w).instr
  | .cmd8 b => decodeCommand c b
  | .train p => decodeTrain c p

/-! ## The encoder (R72, R75, R78, R84, R86) -/

/-- One bit cell at the nominal durations: 562 us mark, then 562 us (0) or 1687 us (1) (R72, R86). -/
def encodeBit (b : Bool) : Train := if b then [562, 1687] else [562, 562]

/-- The eight cells of a byte, bit 0 first (R75, R86). -/
def encodeByte (b : Byte) : Train :=
  encodeBit (b.getLsbD 0) ++ encodeBit (b.getLsbD 1) ++ encodeBit (b.getLsbD 2) ++ encodeBit (b.getLsbD 3) ++
    encodeBit (b.getLsbD 4) ++ encodeBit (b.getLsbD 5) ++ encodeBit (b.getLsbD 6) ++ encodeBit (b.getLsbD 7)

/-- The canonical full frame of four bytes: 67 pulses (R86). -/
def canonicalFrame (a b c d : Byte) : Train :=
  [9000, 4500] ++ encodeByte a ++ encodeByte b ++ encodeByte c ++ encodeByte d ++ [562]

/-- `KEY 0xCC` is `FRAME 0x00 0xFF 0xCC (0xCC xor 0xFF)` (R86). -/
def keyFrame (b : Byte) : Train := canonicalFrame 0x00 0xFF b (b ^^^ 0xFF)

/-- The bare repeat frame on the wire: three pulses (R77, R85 `REPEAT`). -/
def repeatFrame : Train := [9000, 2250, 562]

/-- The code of an instruction; none for RENDER, which is not encoded (R134). -/
def encode (c : Config) : Instr → Option Code
  | .color => some (.cmd8 c.codeColor)
  | .anim => some (.cmd8 c.codeAnim)
  | .speed => some (.cmd8 c.codeSpeed)
  | .off => some (.cmd8 c.codeOff)
  | .on => some (.cmd8 c.codeOn)
  | .nop b => some (.cmd8 b)
  | .frame b0 b1 b2 b3 => some (.train (canonicalFrame b0 b1 b2 b3))
  | .repeatCode p => some (.train p)
  | .illegalTrain p => some (.train p)
  | .renderAll => some (.seq2 SeqOp.renderAll.toBits)
  | .poll => some (.seq2 SeqOp.poll.toBits)
  | .apply => some (.seq2 SeqOp.apply.toBits)
  | .flush => some (.seq2 SeqOp.flush.toBits)
  | .render _ => none

/-! ## Words numbered as the opcode table numbers them -/

/-- Why a table word has no code. -/
inductive Reject where
  /-- The table has rows of 2 bits (SEQ2), 8 bits (CMD8) and 32 bits (NEC32) only. -/
  | noSuchWidth (nbits : Nat)
  /-- The word has a bit set above its width. -/
  | wordTooWide (nbits w : Nat)
deriving DecidableEq, Repr

/-- The code a table word stands for (log 12). One byte: the values 0 to 3 are the SEQ2 words of R84, the others command
bytes. 32 bits: bit `k` is bit cell `k`, so byte 0 is the low byte, carried by the canonical frame (R75, R86). -/
def tableCode (nbits w : Nat) : Except Reject Code :=
  if nbits = 2 ∨ nbits = 8 then
    if w < 4 then .ok (.seq2 (BitVec.ofNat 2 w))
    else if w < 2 ^ nbits then .ok (.cmd8 (BitVec.ofNat 8 w))
    else .error (.wordTooWide nbits w)
  else if nbits = 32 then
    if w < 2 ^ 32 then
      .ok (.train (canonicalFrame (BitVec.ofNat 8 w) (BitVec.ofNat 8 (w / 2 ^ 8)) (BitVec.ofNat 8 (w / 2 ^ 16))
        (BitVec.ofNat 8 (w / 2 ^ 24))))
    else .error (.wordTooWide nbits w)
  else .error (.noSuchWidth nbits)

/-- The instruction a table word decodes to under a configuration, or why not. -/
def decodeWord (c : Config) (nbits w : Nat) : Except Reject Instr :=
  match tableCode nbits w with
  | .ok k => .ok (decodeCode c k)
  | .error r => .error r

/-- The instruction the decoder reads from a table word, with the codes of the reset configuration. -/
def decodeTableWord (nbits w : Nat) : Option Instr :=
  match decodeWord Config.tc1 nbits w with
  | .ok i => some i
  | .error _ => none

end Sys2Proof
end

