-- ==== Sys2Proof/Machine/State.lean ====
section
/-! DEFINITION. The state of the block (R20, R50, R9), why a step can stop, and the state after reset (R181). -/

namespace Sys2Proof.Machine

/-- The faults: only the "requires" of two primitives of R11. The block itself raises no exception (R160), and no
state that meets `Safety.Inv` reaches one (log 16). -/
inductive Fault where
  /-- Raised by `PalRead(p, s)` when palette `p` does not exist (R52: `0 <= p < PALETTE_COUNT`). Safe. -/
  | palReadOutOfRange (p : Nat)
  /-- Raised by `PixWrite(i, v)` when pixel `i` does not exist (R54: `0 <= i < PIXEL_COUNT`). Safe. -/
  | pixWriteOutOfRange (i : Nat)
deriving DecidableEq, Repr

/-- The refusals. -/
inductive Refusal where
  /-- Raised by an arm of `exec` whose instruction has no meaning yet; no arm does. Safe. -/
  | notModelled (mnemonic : String)
  /-- Raised by every meaning under a configuration that is not well formed (R6: "a model refuses any other"). Safe. -/
  | illFormedConfiguration
deriving DecidableEq, Repr

/-- The complete state: R20's table, the two stores of R50 that belong to the receiver and the display, the Show events
of R9, and the model's own fields (`rgb`, `clk`, `rx`, `draws`). -/
structure State where
  /-- The configuration constants; no instruction writes them (R34, R66). -/
  cfg : Config
  /-- `PAL` (R21). -/
  pal : Nat
  /-- `MODE` (R22). -/
  mode : Mode
  /-- `SPD` (R23). -/
  spd : Fin speedTierCount
  /-- `PWR`: true is on (R24). -/
  pwr : Bool
  /-- `SEQ` (R27). -/
  seq : SeqOp
  /-- `T`, in ticks (R29). -/
  t : Nat
  /-- `TF` (R29). -/
  tf : Nat
  /-- `CMDV` (R28). -/
  cmdv : Bool
  /-- `CMD` (R28). -/
  cmd : Byte
  /-- `PIX[0], PIX[1], …` (R30). -/
  pix : List Pixel
  /-- `CAP`, the receiver's capture buffer (R50, R40). -/
  cap : Train
  /-- The display frame (R50, R55). -/
  disp : List Pixel
  /-- The Show events so far, oldest first (R9, R55; log 19). -/
  shows : List (List Pixel)
  /-- The model's own: the result of the last RENDER run as an instruction (log 5). -/
  rgb : Pixel
  /-- The model's own: ticks that pass before each coming `TimeRead()` (R8(b); log 6). -/
  clk : List Nat
  /-- The model's own: pulses captured before each coming `CapRead()` (R8(a); log 7). -/
  rx : List Train
  /-- The model's own: how many free draws have been taken (log 10). -/
  draws : Nat
deriving DecidableEq, Repr

/-- The state after reset under a configuration (R181). `TF`, `CMD`, `PIX`, the display frame and the capture buffer are
unspecified there; DESIGN CHOICE zero or empty (log 4, unsafe). -/
def State.resetWith (c : Config) : State where
  cfg := c
  pal := c.resetPal
  mode := c.resetMode
  spd := c.resetSpd
  pwr := c.resetPwr
  seq := .renderAll
  t := 0
  tf := 0
  cmdv := false
  cmd := 0
  pix := List.replicate c.pixelCount blankPixel
  cap := []
  disp := List.replicate c.pixelCount blankPixel
  shows := []
  rgb := blankPixel
  clk := []
  rx := []
  draws := 0

/-- The state after reset (R181), under the configuration that log 1 names. -/
def State.reset : State := State.resetWith Config.tc1

end Sys2Proof.Machine
end

