-- ==== Sys2Proof/Machine/Ops.lean ====
section
/-! DEFINITION. The named operations: register updates, the primitives of R11, the configuration gate of R6, and the
soft failure of R167, which is all the block has in the place of an exception entry. -/

namespace Sys2Proof.Machine

/-- The outcome of an operation that delivers a value of type `α`. -/
abbrev Result (α : Type) := Host.Outcome α Fault Refusal

/-- Do one operation, and when it completes go on with its value. -/
def andThen {α β : Type} (o : Result α) (k : α → Result β) : Result β :=
  match o with
  | .next a => k a
  | .fault r => .fault r
  | .refused r => .refused r

/-- The rules are stated only for well-formed configurations "and a model refuses any other" (R6). -/
def whenConfigured (s : State) (o : Result State) : Result State :=
  if s.cfg.WF then o else .refused .illFormedConfiguration

/-! ## Register updates -/

/-- `PAL <- p`. -/
def setPal (p : Nat) (s : State) : State := { s with pal := p }

/-- `MODE <- m`. -/
def setMode (m : Mode) (s : State) : State := { s with mode := m }

/-- `SPD <- k`. -/
def setSpd (k : Fin speedTierCount) (s : State) : State := { s with spd := k }

/-- `PWR <- b`. -/
def setPwr (b : Bool) (s : State) : State := { s with pwr := b }

/-- `SEQ <- q` (R27: the only way control moves). -/
def setSeq (q : SeqOp) (s : State) : State := { s with seq := q }

/-- `PIX <- p`, whole. -/
def setPix (p : List Pixel) (s : State) : State := { s with pix := p }

/-- Deliver the result of RENDER run as an instruction of its own (log 5). -/
def setRgb (v : Pixel) (s : State) : State := { s with rgb := v }

/-- `SEQ + 1 mod 4` (R27). -/
def nextSeq : SeqOp → SeqOp
  | .renderAll => .poll
  | .poll => .apply
  | .apply => .flush
  | .flush => .renderAll

/-! ## The stores (R50) -/

/-- `PIX` holds one word a pixel: the one form of the pixel memory (R30, R50; log 15). -/
abbrev Memory.wf (c : Config) (pix : List Pixel) : Prop := pix.length = c.pixelCount

/-- `PIX[i]`; read by `Show()` only, named here so that statements can speak of one entry. -/
def pixRead (s : State) (i : Nat) : Option Pixel := s.pix[i]?

/-- `PixWrite(i, v)` (R54). -/
def pixWrite (i : Nat) (v : Pixel) (s : State) : Result State :=
  if i < s.pix.length then .next (setPix (s.pix.set i v) s) else .fault (.pixWriteOutOfRange i)

/-- `PalRead(p, s)`; the step index is below 8 by its type (R52, R138). -/
def palRead (c : Config) (p : Nat) (st : Fin stepCount) : Option Pixel := (c.palrom[p]?).map fun row => row[st]

/-- `SpdRead(k)` (R53). -/
def spdRead (c : Config) (k : Fin speedTierCount) : Nat := c.speedTicks[k]

/-- `Show()`: the display takes a copy of `PIX`, and a Show event carrying it is recorded (R55). -/
def showFrame (s : State) : State := { s with disp := s.pix, shows := s.shows ++ [s.pix] }

/-! ## Time and capture: the two draws of R8 -/

/-- The ticks that pass before the next `TimeRead()`: the clock's script, or a free draw when it has run out (R8(b)). -/
def ticksDue (s : State) : Nat :=
  match s.clk with
  | d :: _ => d
  | [] => Config.freeTicks s.draws

/-- `TF <- TimeRead()`: the timer has advanced by the ticks due and is never set back (R125, R146). -/
def latchTime (s : State) : State :=
  { s with
    t := s.t + ticksDue s
    tf := s.t + ticksDue s
    clk := s.clk.tail
    draws := if s.clk.isEmpty then s.draws + 1 else s.draws }

/-- The pulses captured before the next `CapRead()`: the receiver's script, or a free draw (R8(a)). -/
def arrivals (s : State) : Train :=
  match s.rx with
  | p :: _ => p
  | [] => Config.freeArrivals s.draws

/-- What `CapRead()` returns: what the buffer held and what has arrived since, in order, at most `CAPTURE_MAX` durations
(R51, R65, R183). -/
def captured (s : State) : Train := (s.cap ++ arrivals s).take s.cfg.captureMax

/-- What `CapRead()` leaves: an empty capture buffer (R51, R189). -/
def afterCapture (s : State) : State :=
  { s with
    cap := []
    rx := s.rx.tail
    draws := if s.rx.isEmpty then s.draws + 1 else s.draws }

end Sys2Proof.Machine
end

