-- ==== Sys2Proof/Machine/Flags.lean ====
section
/-! DEFINITION. The block's two status latches, CMDV and CMD (R28), and the soft failure, which acts on CMDV only (R167). -/

namespace Sys2Proof.Machine

/-- `CMDV <- 1; CMD <- c` (R28, R148). -/
def latchCommand (c : Byte) (s : State) : State := { s with cmdv := true, cmd := c }

/-- `CMDV <- 0`, `CMD` unchanged (R28, R148, R149). -/
def clearCommand (s : State) : State := { s with cmdv := false }

/-- The whole "trap entry" of a soft failure: `CMDV <- 0`, `SEQ <- 2`, nothing else, whatever the cause (R167). There is
no return from it (R168). -/
def softFailure (s : State) : State := setSeq .apply (clearCommand s)

/-- DECODE's success as POLL latches it: `CMDV <- 1; CMD <- c; SEQ <- 2` (R148). -/
def takeCommand (c : Byte) (s : State) : State := setSeq .apply (latchCommand c s)

end Sys2Proof.Machine
end

