-- ==== Sys2Proof/Machine/Decoder.lean ====
section
/-! DEFINITION. The pulse-train rows: what POLL's decode half does with each kind of train (R148, R167; log 9). -/

namespace Sys2Proof.Machine

/-- FRAME: DECODE returns `Command(B[2])`; the other three bytes are ignored (R97, R148). -/
def execFrame (_b0 _b1 b2 _b3 : Byte) (s : State) : Result State := whenConfigured s (.next (takeCommand b2 s))

/-- REPEAT: DECODE returns `NoCommand`; the last command is not applied again (R92, R163, R167). -/
def execRepeatCode (_p : Train) (s : State) : Result State := whenConfigured s (.next (softFailure s))

/-- ILLEGAL_TRAIN: DECODE returns `NoCommand`, silently (R81, R90, R167). -/
def execIllegalTrain (_p : Train) (s : State) : Result State := whenConfigured s (.next (softFailure s))

/-- POLL's decode half on DECODE's result (R148). -/
def latchDecoded (r : Option Byte) (s : State) : State :=
  match r with
  | some c => takeCommand c s
  | none => softFailure s

end Sys2Proof.Machine
end

