-- ==== Sys2Proof/Machine/Mapper.lean ====
section
/-! DEFINITION. The command mapper: the six command roles (R110 to R119). Run alone, a role leaves SEQ, CMDV and CMD
(log 11). -/

namespace Sys2Proof.Machine

/-- COLOR: `PAL <- (PAL + 1) mod PALETTE_COUNT` (R111). -/
def roleColor (s : State) : Result State := .next (setPal ((s.pal + 1) % s.cfg.paletteCount) s)

/-- ANIM: `MODE <- 1 - MODE` (R112). -/
def roleAnim (s : State) : Result State :=
  .next (setMode (match s.mode with | .pulse => .movingPulse | .movingPulse => .pulse) s)

/-- SPEED: `SPD <- (SPD + 1) mod 5`; the timer is not touched (R113). -/
def roleSpeed (s : State) : Result State := .next (setSpd (if s.spd = 4 then 0 else s.spd + 1) s)

/-- `PixWrite(i, 0x000000)` for the listed pixels (R114). -/
def blankPixels : List Nat → State → Result State
  | [], s => .next s
  | i :: is, s => andThen (pixWrite i blankPixel s) (blankPixels is)

/-- OFF: `PWR <- 0`, every pixel blank, `Show()` at once (R114). -/
def roleOff (s : State) : Result State :=
  andThen (blankPixels (List.range s.cfg.pixelCount) (setPwr false s)) fun s' => .next (showFrame s')

/-- ON: `PWR <- 1`; neither `PIX` nor the display is touched (R115). -/
def roleOn (s : State) : Result State := .next (setPwr true s)

/-- NOP: nothing (R116). -/
def roleNop (s : State) : Result State := .next s

/-- APPLYCMD(c): discriminate and dispatch (R110). -/
def applyCommand (c : Byte) (s : State) : Result State :=
  match roleOf s.cfg c with
  | .color => roleColor s
  | .anim => roleAnim s
  | .speed => roleSpeed s
  | .off => roleOff s
  | .on => roleOn s
  | .nop => roleNop s

/-- COLOR (R111). -/
def execColor (s : State) : Result State := whenConfigured s (roleColor s)

/-- ANIM (R112). -/
def execAnim (s : State) : Result State := whenConfigured s (roleAnim s)

/-- SPEED (R113). -/
def execSpeed (s : State) : Result State := whenConfigured s (roleSpeed s)

/-- OFF (R114). -/
def execOff (s : State) : Result State := whenConfigured s (roleOff s)

/-- ON (R115). -/
def execOn (s : State) : Result State := whenConfigured s (roleOn s)

/-- NOP (R116): the byte is any that is not bound, and has no effect. -/
def execNop (_c : Byte) (s : State) : Result State := whenConfigured s (roleNop s)

end Sys2Proof.Machine
end

