-- ==== Sys2Proof/Machine/Operands.lean ====
section
/-! DEFINITION. The renderer's operands, stage by stage (R126 to R134). All arithmetic is exact (R10, R129). -/

namespace Sys2Proof.Machine

/-- The pixel offset: 0 in Pulse mode, the pixel index in MovingPulse mode (R127). -/
def pixelOffset (m : Mode) (i : Nat) : Nat :=
  match m with
  | .pulse => 0
  | .movingPulse => i

/-- The offset time `N := TF - off * I`, a mathematical integer (R128). -/
def offsetTime (tf off I : Nat) : Int := (tf : Int) - (off : Int) * (I : Int)

/-- `n := N mod (14 * I)`, floored (R129, R10). -/
def phaseTicks (N : Int) (I : Nat) : Nat := (N % ((periodUnits * I : Nat) : Int)).toNat

theorem phaseTicks_lt (N : Int) {I : Nat} (h : 0 < I) : phaseTicks N I < periodUnits * I := by
  have hp : (0 : Int) < ((periodUnits * I : Nat) : Int) := by exact_mod_cast Nat.mul_pos (by decide) h
  have h1 := Int.emod_nonneg N hp.ne'
  have h2 := Int.emod_lt_of_pos N hp
  unfold phaseTicks
  omega

theorem phaseTicks_div_lt (N : Int) (I : Nat) : phaseTicks N I / I < periodUnits := by
  rcases Nat.eq_zero_or_pos I with rfl | h
  · simp
  · exact Nat.div_lt_of_lt_mul (by rw [Nat.mul_comm]; exact phaseTicks_lt N h)

/-- `q := n div I`, the whole units, 0 to 13 (R129). -/
def phaseUnit (N : Int) (I : Nat) : Fin periodUnits := ⟨phaseTicks N I / I, phaseTicks_div_lt N I⟩

/-- `r := n mod I`, the ticks into the current unit (R129). -/
def phaseRest (N : Int) (I : Nat) : Nat := phaseTicks N I % I

/-- The step index of `q` and `r`: floor after mirror (R131). -/
def stepNat (q r : Nat) : Nat :=
  if q ≤ 7 then q
  else if r = 0 then 14 - q
  else 13 - q

theorem stepNat_lt {q r : Nat} (h : q < periodUnits) : stepNat q r < stepCount := by
  have h' : q < 14 := h
  show stepNat q r < 8
  unfold stepNat
  split_ifs <;> omega

/-- The step index with its range 0 to 7 (R131, R138). -/
def stepIndex (q : Fin periodUnits) (r : Nat) : Fin stepCount := ⟨stepNat q.val r, stepNat_lt q.isLt⟩

/-- The step index of a pixel at a frame time, from the registers `MODE` and `SPD` (R126 to R131). -/
def stepAt (c : Config) (mode : Mode) (spd : Fin speedTierCount) (tf i : Nat) : Fin stepCount :=
  let I := spdRead c spd
  let N := offsetTime tf (pixelOffset mode i) I
  stepIndex (phaseUnit N I) (phaseRest N I)

/-- `RENDER(PAL, MODE, SPD, PWR, TF, i)`: blank without reading the palette when off (R133, R134); none when the palette
does not exist. -/
def renderWord (c : Config) (pal : Nat) (mode : Mode) (spd : Fin speedTierCount) (pwr : Bool) (tf i : Nat) :
    Option Pixel :=
  if pwr then palRead c pal (stepAt c mode spd tf i) else some blankPixel

/-- RENDER with its register operands taken from a state (R134). -/
def renderPixel (s : State) (i : Nat) : Result Pixel :=
  match renderWord s.cfg s.pal s.mode s.spd s.pwr s.tf i with
  | some v => .next v
  | none => .fault (.palReadOutOfRange s.pal)

end Sys2Proof.Machine
end

