-- ==== Sys2Proof/Machine/Renderer.lean ====
section
/-! DEFINITION. RENDER as an instruction of its own, and the pixel loop of RENDER_ALL (R134, R146). -/

namespace Sys2Proof.Machine

/-- RENDER of pixel `i`, any natural number: the colour word is delivered in `rgb` and no state of R20 is written
(R134; log 5). -/
def execRender (i : Nat) (s : State) : Result State :=
  whenConfigured s (andThen (renderPixel s i) fun v => .next (setRgb v s))

/-- `PixWrite(i, RENDER(PAL, MODE, SPD, PWR, TF, i))` for the listed pixels, in order (R146). -/
def renderPixels : List Nat → State → Result State
  | [], s => .next s
  | i :: is, s => andThen (renderPixel s i) fun v => andThen (pixWrite i v s) (renderPixels is)

end Sys2Proof.Machine
end

