-- ==== Sys2Proof/Machine/Sequencer.lean ====
section
/-! DEFINITION. The four sequencer operations (R145 to R150). -/

namespace Sys2Proof.Machine

/-- RENDER_ALL: one time sample a frame, every pixel rendered, `SEQ <- 1` (R146). -/
def execRenderAll (s : State) : Result State :=
  whenConfigured s
    (andThen (renderPixels (List.range s.cfg.pixelCount) (latchTime s)) fun s' => .next (setSeq .poll s'))

/-- POLL: `CapRead()`, DECODE, latch `CMDV` and `CMD`, `SEQ <- 2` (R147, R148). -/
def execPoll (s : State) : Result State :=
  whenConfigured s (.next (latchDecoded (decode s.cfg (captured s)) (afterCapture s)))

/-- APPLY: the latched command, if there is one, once; `CMDV <- 0`, `SEQ <- 3` (R149). -/
def execApply (s : State) : Result State :=
  whenConfigured s
    (andThen (if s.cmdv then applyCommand s.cmd s else .next s) fun s' => .next (setSeq .flush (clearCommand s')))

/-- FLUSH: `Show()`, `SEQ <- 0` (R150). -/
def execFlush (s : State) : Result State := whenConfigured s (.next (setSeq .renderAll (showFrame s)))

end Sys2Proof.Machine
end

