-- ==== Sys2Proof/Machine/Dispatch.lean ====
section
/-! DEFINITION. exec: one arm per constructor of Instr. -/

namespace Sys2Proof.Machine

def exec (i : Instr) (s : State) : Host.Outcome State Fault Refusal :=
  match i with
  | .color => Sys2Proof.Machine.execColor s
  | .anim => Sys2Proof.Machine.execAnim s
  | .speed => Sys2Proof.Machine.execSpeed s
  | .off => Sys2Proof.Machine.execOff s
  | .on => Sys2Proof.Machine.execOn s
  | .nop c => Sys2Proof.Machine.execNop c s
  | .frame b0 b1 b2 b3 => Sys2Proof.Machine.execFrame b0 b1 b2 b3 s
  | .repeatCode p => Sys2Proof.Machine.execRepeatCode p s
  | .illegalTrain p => Sys2Proof.Machine.execIllegalTrain p s
  | .renderAll => Sys2Proof.Machine.execRenderAll s
  | .poll => Sys2Proof.Machine.execPoll s
  | .apply => Sys2Proof.Machine.execApply s
  | .flush => Sys2Proof.Machine.execFlush s
  | .render k => Sys2Proof.Machine.execRender k s

end Sys2Proof.Machine
end

