-- ==== Sys2Proof/Machine/Fetch.lean ====
section
/-! DEFINITION. Which instruction runs next, and how a coded instruction is placed where it runs next. The block fetches
from no memory (R27): SEQ is decoded, POLL decodes the train it captures, APPLY the byte it finds latched. -/

namespace Sys2Proof.Machine

/-- The instruction that `SEQ` names (R27, R84). -/
def fetch (s : State) : Instr := decodeCode s.cfg (.seq2 s.seq.toBits)

/-- Place a coded instruction so that the very next step runs it (log 13): a sequencer word in `SEQ`; a command byte
latched for APPLY; a pulse train as all that the receiver holds when POLL reads it. -/
def placeCode (k : Code) (s : State) : State :=
  match k with
  | .seq2 w => { s with seq := SeqOp.ofBits w }
  | .cmd8 b => { s with seq := .apply, cmdv := true, cmd := b }
  | .train p => { s with seq := .poll, cap := p, rx := [] :: s.rx }

end Sys2Proof.Machine
end

