-- ==== Sys2Proof/Machine/Step.lean ====
section
/-! DEFINITION. One step of the block is one sequencer operation (R7, R145). -/

namespace Sys2Proof.Machine

/-- The operation `SEQ` names runs to completion (R27, R145). -/
def step (s : State) : Host.Outcome State Fault Refusal := exec (fetch s) s

/-- The state with a word of the opcode table placed where the next step runs it (log 12, log 13); unchanged for a word
that is none of the table's. -/
def State.withFetchWord (s : State) (nbits w : Nat) : State :=
  match tableCode nbits w with
  | .ok k => placeCode k s
  | .error _ => s

end Sys2Proof.Machine
end

