-- ==== Sys2Proof/Safety.lean ====
section
/-! DEFINITION. The invariant of the block, what a state right after reset is, and the terms in which the statements
speak: the document's step function, the effect of a command on the animation state, repeated instructions. -/

namespace Sys2Proof.Safety

open Sys2Proof.Machine

/-- A frame of `PIXEL_COUNT` blank words (R58, R114). -/
def blankFrame (c : Config) : List Pixel := List.replicate c.pixelCount blankPixel

/-- The frame RENDER computes at time `tf` from a state's animation registers (R146). -/
def frameOf (s : State) (tf : Nat) : List Pixel :=
  (List.range s.cfg.pixelCount).map fun i =>
    (renderWord s.cfg s.pal s.mode s.spd s.pwr tf i).getD blankPixel

/-- What holds at every point between sequencer operations. -/
structure Inv (s : State) : Prop where
  /-- The configuration is well formed (R6). -/
  configured : s.cfg.WF
  /-- `0 <= PAL < PALETTE_COUNT` (R25; `SPD < 5` holds by its type). -/
  palInRange : s.pal < s.cfg.paletteCount
  /-- `PIX` has one word a pixel (R30). -/
  pixSized : Memory.wf s.cfg s.pix
  /-- The display frame has one word a pixel (R50). -/
  dispSized : Memory.wf s.cfg s.disp
  /-- Every Show event carries one word a pixel (R55). -/
  showsSized : ∀ f ∈ s.shows, Memory.wf s.cfg f
  /-- The display holds what the last Show event carried (R55). -/
  dispShown : s.shows = [] ∨ s.shows.getLast? = some s.disp
  /-- The capture buffer holds at most `CAPTURE_MAX` durations (R50). -/
  capBounded : s.cap.length ≤ s.cfg.captureMax
  /-- A latched command waits for APPLY only (R148, R149). -/
  commandAtApply : s.cmdv = true → s.seq = .apply
  /-- From RENDER_ALL to the end of the cycle `TF` is the timer value it sampled (R146; log 6). -/
  timeLatched : s.seq ≠ .renderAll → s.tf = s.t
  /-- Until APPLY, `PIX` is the frame of the present animation state at `TF` (R146, R154). -/
  frameCurrent : s.seq = .poll ∨ s.seq = .apply → s.pix = frameOf s s.tf
  /-- Off means dark: from RENDER_ALL on, `PIX` is blank while `PWR` = 0 (R133, R155, R177). -/
  darkWhenOff : s.pwr = false → s.seq ≠ .renderAll → s.pix = blankFrame s.cfg

/-- A state right after reset: what R181 gives a value has it; `TF`, `CMD`, `PIX`, the display frame, the capture buffer
and the inputs to come are anything of their size. -/
structure AtReset (s : State) : Prop where
  configured : s.cfg.WF
  pal : s.pal = s.cfg.resetPal
  mode : s.mode = s.cfg.resetMode
  spd : s.spd = s.cfg.resetSpd
  pwr : s.pwr = s.cfg.resetPwr
  seq : s.seq = .renderAll
  t : s.t = 0
  cmdv : s.cmdv = false
  shows : s.shows = []
  pixSized : Memory.wf s.cfg s.pix
  dispSized : Memory.wf s.cfg s.disp
  capBounded : s.cap.length ≤ s.cfg.captureMax

/-- The document's `step(phase)` with `stepCount` = 8, on rationals (R130). -/
def documentStep (phase : ℚ) : ℚ := if phase < 8 then phase else 8 - (phase - (8 - 2))

/-- The animation state `(PAL, MODE, SPD, PWR)` after DECODE's result `r` has been applied, as the transition table has it
(R110 to R116); nothing changes without a command (R149). -/
def CommandEffect (r : Option Byte) (s t : State) : Prop :=
  (if r = some s.cfg.codeColor then t.pal = (s.pal + 1) % s.cfg.paletteCount else t.pal = s.pal) ∧
  (if r = some s.cfg.codeAnim then t.mode ≠ s.mode else t.mode = s.mode) ∧
  (if r = some s.cfg.codeSpeed then t.spd.val = (s.spd.val + 1) % 5 else t.spd = s.spd) ∧
  (if r = some s.cfg.codeOff then t.pwr = false else if r = some s.cfg.codeOn then t.pwr = true else t.pwr = s.pwr)

/-- Run one instruction `n` times. -/
def repeatExec (i : Instr) : Nat → State → Result State
  | 0, s => .next s
  | n + 1, s => andThen (exec i s) (repeatExec i n)

/-- An APPLY that performs the command with this code. -/
def Applies (i : Instr) (s : State) (code : Byte) : Prop := i = .apply ∧ s.cmdv = true ∧ s.cmd = code

/-- The same state but for `TF`, `CMD`, `PIX` and the display frame, which R181 leaves unspecified, and RENDER's delivery
place (log 5). The capture buffer, which R181 leaves unspecified too, is the same: its pulses may hold a command. -/
def SameButUnspecified (s s' : State) : Prop :=
  s' = { s with tf := s'.tf, cmd := s'.cmd, pix := s'.pix, disp := s'.disp, rgb := s'.rgb }

/-- No Show event to come can tell the two states apart: before RENDER_ALL they are the same but for the contents it
overwrites; later on, but for the display frame, RENDER's delivery place, and a `CMD` that no set `CMDV` makes valid. -/
def ShowAlike (s s' : State) : Prop :=
  (s.seq = .renderAll ∧ SameButUnspecified s s') ∨
    (s' = { s with cmd := s'.cmd, disp := s'.disp, rgb := s'.rgb } ∧ (s.cmdv = true → s'.cmd = s.cmd))

end Sys2Proof.Safety
end

