-- ==== Sys2Proof/Certificates/Slice0/Obligations.lean ====
section
/-! DEFINITION. The statements for the provers, in the order of OBLIGATIONS.json: encodings and decoder, instructions,
renderer, sequencer and whole machine. None rests on the values of `Config.tc1` except where its docstring says so.
In a whole next state `{ s with … }` the timer `T` and the inputs to come stand still: log 6, log 7. -/

open Sys2Proof Sys2Proof.Machine Sys2Proof.Safety

/-! ## Encodings and the decoder -/

/-- Decoding the code of a well-formed instruction gives the instruction back, at every operand value (R72, R75,
R78, R84, R86; frame size, bit order and the canonical frame are the spec's decisions D9, D11, D23; the canonical
frame stands for the frames of its bytes, log 24). -/
def Obligations.DecodeInvertsEncode : Prop :=
  ∀ (c : Config) (i : Instr) (k : Code), c.WF → i.WF c → encode c i = some k → decodeCode c k = i

/-- Words written out from the spec's encodings decode to their rows: KEY 0x10 pulse by pulse (95_test_vectors.md
section 2), the empty train, a repeat header of full length, the test configuration's command bytes, the four SEQ
values. -/
def Obligations.SpecWordsDecode : Prop :=
  let c := Config.tc1
  decodeCode c (.train [9000, 4500,
      562, 562, 562, 562, 562, 562, 562, 562, 562, 562, 562, 562, 562, 562, 562, 562,
      562, 1687, 562, 1687, 562, 1687, 562, 1687, 562, 1687, 562, 1687, 562, 1687, 562, 1687,
      562, 562, 562, 562, 562, 562, 562, 562, 562, 1687, 562, 562, 562, 562, 562, 562,
      562, 1687, 562, 1687, 562, 1687, 562, 1687, 562, 562, 562, 1687, 562, 1687, 562, 1687,
      562]) = .frame 0x00 0xFF 0x10 0xEF ∧
  decodeCode c (.train []) = .illegalTrain [] ∧
  decodeCode c (.train (9000 :: 2250 :: List.replicate 65 562)) = .repeatCode (9000 :: 2250 :: List.replicate 65 562) ∧
  decodeCode c (.cmd8 0x10) = .color ∧ decodeCode c (.cmd8 0x11) = .anim ∧ decodeCode c (.cmd8 0x12) = .speed ∧
  decodeCode c (.cmd8 0x13) = .off ∧ decodeCode c (.cmd8 0x14) = .on ∧ decodeCode c (.cmd8 0x55) = .nop 0x55 ∧
  decodeCode c (.seq2 0) = .renderAll ∧ decodeCode c (.seq2 1) = .poll ∧ decodeCode c (.seq2 2) = .apply ∧
  decodeCode c (.seq2 3) = .flush

/-- R78: the command byte selects its role by equality with the five codes, every other value NOP. -/
def Obligations.CommandByteSelectsRole : Prop :=
  ∀ c : Config, c.WF →
    decodeCommand c c.codeColor = .color ∧ decodeCommand c c.codeAnim = .anim ∧
    decodeCommand c c.codeSpeed = .speed ∧ decodeCommand c c.codeOff = .off ∧ decodeCommand c c.codeOn = .on ∧
    ∀ b : Byte, b ∉ c.codes → decodeCommand c b = .nop b

/-- R91: VALIDATE is the inclusive length window, and a train it rejects is NoCommand with cause LEN. -/
def Obligations.LengthOutsideWindowIsNoCommand : Prop :=
  ∀ (c : Config) (p : Train),
    (validate c p.length = true ↔ c.minPulses ≤ p.length ∧ p.length ≤ c.maxPulses) ∧
    (validate c p.length = false → decode c p = none ∧ causeOf c p = some .len)

/-- R92: IsRepeat is the leader mark and the repeat space, guarded by `n >= 2`; a train of that shape is NoCommand,
with cause REPEAT when its length is admissible (the test is the spec's decision D18). -/
def Obligations.RepeatHeaderIsNoCommand : Prop :=
  ∀ (c : Config) (p : Train),
    (isRepeat c p = true ↔ Train.RepeatHeader c p) ∧
    (Train.RepeatHeader c p → decode c p = none) ∧
    (Train.RepeatHeader c p → Train.LengthOk c p → causeOf c p = some .repeatHeader)

/-- R98, which the spec derives: DECODE returns a command if and only if the train is a full frame of admissible
length, every cell valid (the frame, windows and header test are the spec's decisions D9, D10, D18; log 23). -/
def Obligations.CommandExactlyForFullFrames : Prop :=
  ∀ (c : Config) (p : Train), c.WF → ((∃ b, decode c p = some b) ↔ Train.FullFrame c p)

/-- R75, R96: the four bytes of a decoded frame, least significant bit first, a long space a 1 (the spec's decision
D11); the command is byte 2 (R97). -/
def Obligations.FrameBytesLeastSignificantFirst : Prop :=
  ∀ (c : Config) (p : Train) (b0 b1 b2 b3 : Byte), c.WF → decodeTrain c p = .frame b0 b1 b2 b3 →
    decode c p = some b2 ∧
    ∀ j < 8,
      (b0.getLsbD j = true ↔ c.space1.Contains (Train.pulseAt p (3 + 2 * j))) ∧
      (b1.getLsbD j = true ↔ c.space1.Contains (Train.pulseAt p (3 + 2 * (8 + j)))) ∧
      (b2.getLsbD j = true ↔ c.space1.Contains (Train.pulseAt p (3 + 2 * (16 + j)))) ∧
      (b3.getLsbD j = true ↔ c.space1.Contains (Train.pulseAt p (3 + 2 * (24 + j))))

/-- R100, which the spec derives: two trains of one length that both carry a command and differ at most in the
spaces of cells 0..15 and 24..31 and in the trailer carry the same command. -/
def Obligations.CommandIndependentOfOtherBytes : Prop :=
  ∀ (c : Config) (p p' : Train) (b b' : Byte), c.WF → p.length = p'.length →
    decode c p = some b → decode c p' = some b' →
    (∀ k < 66, ¬ (k % 2 = 1 ∧ (3 ≤ k ∧ k ≤ 33 ∨ 51 ≤ k ∧ k ≤ 65)) → Train.pulseAt p k = Train.pulseAt p' k) →
    b = b'

/-- R161 (the labels are the spec's decision D21): no later step depends on why a train was no command: two such
trains in the capture buffer leave the same state, whatever their causes. (That nothing more arrives is said by the
script: log 7.) -/
def Obligations.SoftFailureCausesIndistinguishable : Prop :=
  ∀ (s : State) (p p' : Train), p.length ≤ s.cfg.captureMax → p'.length ≤ s.cfg.captureMax →
    decode s.cfg p = none → decode s.cfg p' = none →
    exec .poll { s with cap := p, rx := [] :: s.rx } = exec .poll { s with cap := p', rx := [] :: s.rx }

/-! ## The command roles -/

/-- R111: COLOR advances `PAL`, wrapping at PALETTE_COUNT, and writes nothing else. -/
def Obligations.ColorAdvancesPalette : Prop :=
  ∀ s : State, s.cfg.WF → s.pal < s.cfg.paletteCount →
    exec .color s = .next { s with pal := if s.pal + 1 = s.cfg.paletteCount then 0 else s.pal + 1 }

/-- R112: ANIM toggles `MODE` and writes nothing else. -/
def Obligations.AnimTogglesMode : Prop :=
  ∀ s : State, s.cfg.WF →
    (s.mode = .pulse → exec .anim s = .next { s with mode := .movingPulse }) ∧
    (s.mode = .movingPulse → exec .anim s = .next { s with mode := .pulse })

/-- R113: SPEED advances `SPD`, wrapping at 5, and writes nothing else. -/
def Obligations.SpeedAdvancesTier : Prop :=
  ∀ s : State, s.cfg.WF →
    ∃ k : Fin speedTierCount, k.val = (s.spd.val + 1) % 5 ∧ exec .speed s = .next { s with spd := k }

/-- R114: OFF clears `PWR`, blanks every pixel and shows the blank buffer at once; nothing else is written. -/
def Obligations.OffBlanksAndShows : Prop :=
  ∀ s : State, s.cfg.WF → Memory.wf s.cfg s.pix →
    exec .off s = .next { s with
      pwr := false
      pix := blankFrame s.cfg
      disp := blankFrame s.cfg
      shows := s.shows ++ [blankFrame s.cfg] }

/-- R115: ON sets `PWR` and writes nothing else: no pixel, no Show. -/
def Obligations.OnSetsPowerOnly : Prop :=
  ∀ s : State, s.cfg.WF → exec .on s = .next { s with pwr := true }

/-- R116: NOP leaves the whole state, for every byte. -/
def Obligations.NopLeavesState : Prop :=
  ∀ (s : State) (b : Byte), s.cfg.WF → exec (.nop b) s = .next s

/-- R117, the spec's derivation and decision D25: commands are not gated by the power state: run with `PWR` either
way, COLOR, ANIM, SPEED and NOP do the same, and OFF and ON end in the same state. -/
def Obligations.CommandsNotGatedByPower : Prop :=
  ∀ (s : State) (b : Bool) (i : Instr),
    (i = .color ∨ i = .anim ∨ i = .speed ∨ (∃ x, i = .nop x) →
      exec i { s with pwr := b } = andThen (exec i s) fun t => .next { t with pwr := b }) ∧
    (i = .off ∨ i = .on → exec i { s with pwr := b } = exec i s)

/-- R111 to R113, the periods: COLOR PALETTE_COUNT times, ANIM twice and SPEED five times give the state back. -/
def Obligations.RolePeriods : Prop :=
  ∀ s : State, s.cfg.WF → s.pal < s.cfg.paletteCount →
    repeatExec .color s.cfg.paletteCount s = .next s ∧ repeatExec .anim 2 s = .next s ∧
    repeatExec .speed 5 s = .next s

/-- The frame of COLOR, ANIM, SPEED, ON and NOP (R111 to R113, R115, R116): besides the one register a role names,
every register, store, Show event and input is unchanged, and every pixel reads as before. (That `T` and the inputs
to come stand still meanwhile: log 6, log 7.) -/
def Obligations.RegisterRolesFrame : Prop :=
  ∀ (i : Instr) (s t : State), (i = .color ∨ i = .anim ∨ i = .speed ∨ i = .on ∨ ∃ b, i = .nop b) → exec i s = .next t →
    (i ≠ .color → t.pal = s.pal) ∧ (i ≠ .anim → t.mode = s.mode) ∧ (i ≠ .speed → t.spd = s.spd) ∧
    (i ≠ .on → t.pwr = s.pwr) ∧
    t.cfg = s.cfg ∧ t.seq = s.seq ∧ t.t = s.t ∧ t.tf = s.tf ∧ t.cmdv = s.cmdv ∧ t.cmd = s.cmd ∧ t.cap = s.cap ∧
    t.disp = s.disp ∧ t.shows = s.shows ∧ t.rgb = s.rgb ∧ t.clk = s.clk ∧ t.rx = s.rx ∧ t.draws = s.draws ∧
    ∀ k, pixRead t k = pixRead s k

/-- The frame of OFF (R114): `PWR`, `PIX`, the display frame and the Show events alone change, and the pixels stored
to are those below PIXEL_COUNT, each now blank. (That `T` and the inputs to come stand still meanwhile: log 6, log
7.) -/
def Obligations.OffFrame : Prop :=
  ∀ s t : State, exec .off s = .next t →
    t.cfg = s.cfg ∧ t.pal = s.pal ∧ t.mode = s.mode ∧ t.spd = s.spd ∧ t.seq = s.seq ∧ t.t = s.t ∧ t.tf = s.tf ∧
    t.cmdv = s.cmdv ∧ t.cmd = s.cmd ∧ t.cap = s.cap ∧ t.rgb = s.rgb ∧ t.clk = s.clk ∧ t.rx = s.rx ∧ t.draws = s.draws ∧
    t.shows.dropLast = s.shows ∧
    (∀ k, k < s.cfg.pixelCount → pixRead t k = some blankPixel) ∧
    ∀ k, ¬ k < s.cfg.pixelCount → pixRead t k = pixRead s k

/-! ## The pulse-train rows and POLL -/

/-- The meaning of the three pulse-train rows, the decode half of POLL (R148, R167): a FRAME latches its byte 2,
REPEAT and ILLEGAL_TRAIN clear `CMDV`; `SEQ <- 2`; nothing else. That a row's meaning includes `SEQ <- 2` is the
model's choice (log 9). -/
def Obligations.TrainRowsLatchDecodeResult : Prop :=
  ∀ s : State, s.cfg.WF →
    (∀ b0 b1 b2 b3, exec (.frame b0 b1 b2 b3) s = .next { s with cmdv := true, cmd := b2, seq := .apply }) ∧
    (∀ p, exec (.repeatCode p) s = .next { s with cmdv := false, seq := .apply }) ∧
    (∀ p, exec (.illegalTrain p) s = .next { s with cmdv := false, seq := .apply })

/-- The frame of FRAME, REPEAT and ILLEGAL_TRAIN (R99, R148): besides `CMDV`, `CMD` and `SEQ` nothing is written;
`CMD` by FRAME alone. (The rows' meaning as instructions: log 9; that `T` and the inputs to come stand still meanwhile:
log 6, log 7.) -/
def Obligations.TrainRowsFrame : Prop :=
  ∀ (i : Instr) (s t : State),
    ((∃ b0 b1 b2 b3, i = .frame b0 b1 b2 b3) ∨ (∃ p, i = .repeatCode p) ∨ (∃ p, i = .illegalTrain p)) →
    exec i s = .next t →
    ((∀ b0 b1 b2 b3, i ≠ .frame b0 b1 b2 b3) → t.cmd = s.cmd) ∧
    t.cfg = s.cfg ∧ t.pal = s.pal ∧ t.mode = s.mode ∧ t.spd = s.spd ∧ t.pwr = s.pwr ∧ t.t = s.t ∧ t.tf = s.tf ∧
    t.cap = s.cap ∧ t.disp = s.disp ∧ t.shows = s.shows ∧ t.rgb = s.rgb ∧ t.clk = s.clk ∧ t.rx = s.rx ∧
    t.draws = s.draws ∧ ∀ k, pixRead t k = pixRead s k

/-- POLL is, on the state CapRead() leaves, the meaning of the row its captured train decodes to (R147, R148). That
the rows FRAME, REPEAT and ILLEGAL_TRAIN have this meaning is the model's choice (log 9). -/
def Obligations.PollRunsTheReceivedTrain : Prop :=
  ∀ s : State, exec .poll s = exec (decodeTrain s.cfg (captured s)) (afterCapture s)

/-- POLL completes; `Command(c)` sets `CMDV` and `CMD`, `NoCommand` clears `CMDV` and leaves `CMD`; `SEQ <- 2`; the
animation state, the time, `PIX` and the Show events are kept (R147, R148). The capture has at most CAPTURE_MAX
durations and leaves an empty buffer (R51, with the spec's decision D26). That it is what the buffer held followed
by what arrived, and that arrivals come from a script, is the model's choice (log 7). -/
def Obligations.PollCapturesAndLatches : Prop :=
  ∀ s : State, s.cfg.WF →
    (captured s).length ≤ s.cfg.captureMax ∧
    (∀ p r, s.rx = p :: r → captured s = (s.cap ++ p).take s.cfg.captureMax) ∧
    ∃ t, exec .poll s = .next t ∧ t.cap = [] ∧ t.seq = .apply ∧
      t.pal = s.pal ∧ t.mode = s.mode ∧ t.spd = s.spd ∧ t.pwr = s.pwr ∧ t.pix = s.pix ∧ t.t = s.t ∧ t.tf = s.tf ∧
      t.shows = s.shows ∧
      (∀ b, decode s.cfg (captured s) = some b → t.cmdv = true ∧ t.cmd = b) ∧
      (decode s.cfg (captured s) = none → t.cmdv = false ∧ t.cmd = s.cmd)

/-- R167: the exact effect of a failing POLL: `CMDV <- 0`, `SEQ <- 2`, and of the state of R20 nothing else. -/
def Obligations.FailingPollWritesOnlyCmdvAndSeq : Prop :=
  ∀ s : State, s.cfg.WF → decode s.cfg (captured s) = none →
    ∃ t, exec .poll s = .next t ∧ t.cmdv = false ∧ t.seq = .apply ∧
      t.pal = s.pal ∧ t.mode = s.mode ∧ t.spd = s.spd ∧ t.pwr = s.pwr ∧ t.pix = s.pix ∧ t.t = s.t ∧ t.tf = s.tf ∧
      t.cmd = s.cmd ∧ t.cfg = s.cfg

/-- R51: CapRead() empties the buffer, so a POLL with no new pulses since the last one captures the empty train.
(That nothing has arrived is said by the script: log 7.) -/
def Obligations.PollWithNoNewPulsesCapturesNothing : Prop :=
  ∀ (s t : State) (r : List Train), exec .poll s = .next t → t.rx = [] :: r → captured t = []

/-- The frame of POLL (R99, R147, R148): the animation state, the time, the pixels, the display and the Show events
are unchanged. (That `T` stands still meanwhile and one script entry is used up: log 6, log 7.) -/
def Obligations.PollFrame : Prop :=
  ∀ s t : State, exec .poll s = .next t →
    t.cfg = s.cfg ∧ t.pal = s.pal ∧ t.mode = s.mode ∧ t.spd = s.spd ∧ t.pwr = s.pwr ∧ t.t = s.t ∧ t.tf = s.tf ∧
    t.disp = s.disp ∧ t.shows = s.shows ∧ t.rgb = s.rgb ∧ t.clk = s.clk ∧ t.rx = s.rx.tail ∧
    ∀ k, pixRead t k = pixRead s k

/-! ## RENDER_ALL, APPLY, FLUSH, RENDER -/

/-- R146: RENDER_ALL samples the timer once into `TF` (the spec's decision D16) and writes every pixel with RENDER
at that time; `SEQ <- 1`; the animation state is read, not written. The timer it reads is not below the one before
(R8, R125). That `T` equals `TF` right after the operation, and that it has advanced by the script's ticks where
there is a script, is the model's choice (log 6). -/
def Obligations.RenderAllDrawsOneFrame : Prop :=
  ∀ s : State, s.cfg.WF → s.pal < s.cfg.paletteCount → Memory.wf s.cfg s.pix →
    ∃ t, exec .renderAll s = .next t ∧ t.tf = t.t ∧ s.t ≤ t.t ∧ (∀ d ds, s.clk = d :: ds → t.t = s.t + d) ∧
      t.seq = .poll ∧ t.pal = s.pal ∧ t.mode = s.mode ∧ t.spd = s.spd ∧ t.pwr = s.pwr ∧
      t.pix.length = s.cfg.pixelCount ∧
      ∀ i < s.cfg.pixelCount, pixRead t i = renderWord s.cfg s.pal s.mode s.spd s.pwr t.tf i

/-- The frame of RENDER_ALL (R146): besides `T`, `TF`, `SEQ`, the clock's inputs and the pixels below PIXEL_COUNT
nothing is written, no Show is made and no command is touched. (That one script entry of the clock is used up, and
none of the receiver's: log 6, log 7.) -/
def Obligations.RenderAllFrame : Prop :=
  ∀ s t : State, exec .renderAll s = .next t →
    t.cfg = s.cfg ∧ t.pal = s.pal ∧ t.mode = s.mode ∧ t.spd = s.spd ∧ t.pwr = s.pwr ∧ t.cmdv = s.cmdv ∧ t.cmd = s.cmd ∧
    t.cap = s.cap ∧ t.disp = s.disp ∧ t.shows = s.shows ∧ t.rgb = s.rgb ∧ t.rx = s.rx ∧ t.clk = s.clk.tail ∧
    ∀ k, ¬ k < s.cfg.pixelCount → pixRead t k = pixRead s k

/-- R149: APPLY performs the latched command once, as the instruction its byte decodes to, then `CMDV <- 0`, `SEQ <-
3`; with `CMDV` = 0 nothing else is written. -/
def Obligations.ApplyPerformsLatchedCommand : Prop :=
  ∀ s : State, s.cfg.WF →
    (s.cmdv = false → exec .apply s = .next { s with cmdv := false, seq := .flush }) ∧
    (s.cmdv = true →
      exec .apply s = andThen (exec (decodeCommand s.cfg s.cmd) s) fun t => .next { t with cmdv := false, seq := .flush })

/-- APPLY always completes, whatever is latched, with the effect of the latched command on the animation state
(R149, R110 to R116). -/
def Obligations.ApplyCompletes : Prop :=
  ∀ s : State, s.cfg.WF → Memory.wf s.cfg s.pix →
    ∃ t, exec .apply s = .next t ∧ t.cmdv = false ∧ t.seq = .flush ∧
      CommandEffect (if s.cmdv then some s.cmd else none) s t

/-- The frame of APPLY (R149): the time, `CMD`, the inputs and the configuration are unchanged; unless it performs
OFF, the display, the Show events and every pixel are unchanged; performing OFF, the pixels stored to are those
below PIXEL_COUNT. (That `T` and the inputs to come stand still meanwhile: log 6, log 7.) -/
def Obligations.ApplyFrame : Prop :=
  ∀ s t : State, exec .apply s = .next t →
    t.cfg = s.cfg ∧ t.t = s.t ∧ t.tf = s.tf ∧ t.cmd = s.cmd ∧ t.cap = s.cap ∧ t.rgb = s.rgb ∧ t.clk = s.clk ∧
    t.rx = s.rx ∧ t.draws = s.draws ∧
    (decodeCommand s.cfg s.cmd ≠ .off ∨ s.cmdv = false →
      t.disp = s.disp ∧ t.shows = s.shows ∧ ∀ k, pixRead t k = pixRead s k) ∧
    ∀ k, ¬ k < s.cfg.pixelCount → pixRead t k = pixRead s k

/-- R150: FLUSH shows the present buffer and starts the next cycle; `PIX` and everything else are unchanged. -/
def Obligations.FlushShowsBuffer : Prop :=
  ∀ s : State, s.cfg.WF →
    exec .flush s = .next { s with disp := s.pix, shows := s.shows ++ [s.pix], seq := .renderAll }

/-- RENDER as an instruction: for every pixel index, a natural number, it delivers the word of R134 and writes no
state of R20. The delivery in `rgb` is the model's choice (log 5). -/
def Obligations.RenderDeliversColour : Prop :=
  ∀ (s : State) (i : Nat), s.cfg.WF → s.pal < s.cfg.paletteCount →
    ∃ v, renderWord s.cfg s.pal s.mode s.spd s.pwr s.tf i = some v ∧ exec (.render i) s = .next { s with rgb := v }

/-! ## The waveform -/

/-- R130, R131: the integer case split is the floor of the document's step function at phase `q + r/I` (floor after
mirror is the spec's decision D14). -/
def Obligations.StepIndexIsFlooredDocumentStep : Prop :=
  ∀ q r I : Nat, q < 14 → r < I → (stepNat q r : ℤ) = ⌊documentStep ((q : ℚ) + (r : ℚ) / (I : ℚ))⌋

/-- R129: `q + r/I` is `N/I` modulo 14, evaluated exactly, also for negative `N` (the spec's decision D12). -/
def Obligations.PhaseIsExact : Prop :=
  ∀ (N : ℤ) (I : Nat), 0 < I →
    phaseRest N I < I ∧
    ∃ k : ℤ, (N : ℚ) / (I : ℚ) = 14 * k + (((phaseUnit N I).val : ℚ) + (phaseRest N I : ℚ) / (I : ℚ))

/-- R129 to R132 in one: a powered RENDER reads the palette at the floor of the document's step of the phase `x`,
the number in [0, 14) that `(TF - off * I) / I` is modulo 14. -/
def Obligations.RenderIsDocumentFormula : Prop :=
  ∀ (c : Config) (pal : Nat) (mode : Mode) (spd : Fin speedTierCount) (tf i : Nat) (x : ℚ) (k : ℤ), c.WF →
    0 ≤ x → x < 14 →
    ((tf : ℚ) - (if mode = .movingPulse then (i : ℚ) else 0) * (c.speedTicks[spd] : ℚ)) / (c.speedTicks[spd] : ℚ)
      = 14 * k + x →
    ∃ st : Fin stepCount, (st.val : ℤ) = ⌊documentStep x⌋ ∧
      renderWord c pal mode spd true tf i = (c.palrom[pal]?).map fun row => row[st]

/-- R139, the table of R131, which the spec derives (with its decision D14): over one period, sampled on whole units
and inside each unit, for every interval. -/
def Obligations.SequenceOverOnePeriod : Prop :=
  ∀ (c : Config) (spd : Fin speedTierCount) (i r : Nat), c.WF → r < c.speedTicks[spd] →
    (List.range 14).map (fun q => (stepAt c .pulse spd (q * c.speedTicks[spd] + r) i).val) =
      if r = 0 then [0, 1, 2, 3, 4, 5, 6, 7, 6, 5, 4, 3, 2, 1] else [0, 1, 2, 3, 4, 5, 6, 7, 5, 4, 3, 2, 1, 0]

/-- R133: off means the blank word for every operand, the palette not consulted (it need not even exist). -/
def Obligations.BlankWhenOff : Prop :=
  ∀ (c : Config) (pal : Nat) (mode : Mode) (spd : Fin speedTierCount) (tf i : Nat),
    renderWord c pal mode spd false tf i = some blankPixel

/-- R135, which the spec derives and the document states: RENDER is periodic in time with period 14 intervals. -/
def Obligations.RenderPeriodicInTime : Prop :=
  ∀ (c : Config) (pal : Nat) (mode : Mode) (spd : Fin speedTierCount) (pwr : Bool) (tf i : Nat), c.WF →
    renderWord c pal mode spd pwr tf i = renderWord c pal mode spd pwr (tf + 14 * c.speedTicks[spd]) i

/-- R136, its law: in Pulse mode every pixel has the same word; so a frame drawn in Pulse mode is uniform. (Its
remark on Show events holds of the frames drawn in Pulse mode, log 22.) -/
def Obligations.PulseModeIsUniform : Prop :=
  (∀ (c : Config) (pal : Nat) (spd : Fin speedTierCount) (pwr : Bool) (tf i j : Nat),
    renderWord c pal .pulse spd pwr tf i = renderWord c pal .pulse spd pwr tf j) ∧
  ∀ (s t : State) (i j : Nat), s.mode = .pulse → exec .renderAll s = .next t →
    i < s.cfg.pixelCount → j < s.cfg.pixelCount → pixRead t i = pixRead t j

/-- R137 (the sign of the offset is the spec's decision D13, its consequences the spec's derivation): the shift law
of MovingPulse, the 14-pixel repeat, and pixel `i` showing what pixel 0 showed `i` units before. -/
def Obligations.MovingPulseShifts : Prop :=
  ∀ (c : Config) (pal : Nat) (spd : Fin speedTierCount) (pwr : Bool) (tf i : Nat), c.WF →
    renderWord c pal .movingPulse spd pwr tf i = renderWord c pal .movingPulse spd pwr (tf + c.speedTicks[spd]) (i + 1) ∧
    renderWord c pal .movingPulse spd pwr tf i = renderWord c pal .movingPulse spd pwr tf (i + 14) ∧
    (i * c.speedTicks[spd] ≤ tf →
      renderWord c pal .movingPulse spd pwr tf i = renderWord c pal .movingPulse spd pwr (tf - i * c.speedTicks[spd]) 0)

/-- R138, R52: with an existing palette a powered RENDER always delivers a word of that palette's row. -/
def Obligations.RenderStaysInPalette : Prop :=
  ∀ (c : Config) (pal : Nat) (mode : Mode) (spd : Fin speedTierCount) (tf i : Nat), c.WF → pal < c.paletteCount →
    ∃ row v, c.palrom[pal]? = some row ∧ v ∈ row.toList ∧ renderWord c pal mode spd true tf i = some v

/-- The document's scenario (R134, SV1 to SV3): at 0, 700 and 800 ticks of a 100-tick tier, Pulse mode shows steps
0, 7 and 6. -/
def Obligations.SourceScenario : Prop :=
  ∀ (c : Config) (pal i : Nat), c.speedTicks[2] = 100 →
    renderWord c pal .pulse 2 true 0 i = palRead c pal 0 ∧
    renderWord c pal .pulse 2 true 700 i = palRead c pal 7 ∧
    renderWord c pal .pulse 2 true 800 i = palRead c pal 6

/-! ## Reset, steps and the whole machine -/

/-- R181: the state after reset, for every configuration; and the four RESET_ parameters at their defaults in
`State.reset` (the spec's decisions D15, D19, D22). The contents R181 leaves unspecified are not stated. -/
def Obligations.ResetValues : Prop :=
  (∀ c : Config,
    let s := State.resetWith c
    s.cfg = c ∧ s.pal = c.resetPal ∧ s.mode = c.resetMode ∧ s.spd = c.resetSpd ∧ s.pwr = c.resetPwr ∧
    s.seq = .renderAll ∧ s.t = 0 ∧ s.cmdv = false) ∧
  State.reset.pal = 0 ∧ State.reset.mode = .pulse ∧ State.reset.spd = 0 ∧ State.reset.pwr = true

/-- Every state right after reset meets the invariant, whatever R181 leaves unspecified. -/
def Obligations.ResetMeetsInvariant : Prop :=
  (∀ s : State, AtReset s → Inv s) ∧ ∀ c : Config, c.WF → AtReset (State.resetWith c)

/-- R84: the operation that runs is the one `SEQ` names (the numbering is the spec's decision D19). -/
def Obligations.StepRunsTheOperationOfSeq : Prop :=
  ∀ s : State, step s = exec (decodeCode s.cfg (.seq2 s.seq.toBits)) s ∧
    (s.seq.toBits = 0 → step s = exec .renderAll s) ∧ (s.seq.toBits = 1 → step s = exec .poll s) ∧
    (s.seq.toBits = 2 → step s = exec .apply s) ∧ (s.seq.toBits = 3 → step s = exec .flush s)

/-- A step runs the decoded instruction, in each coded form (log 13): a placed sequencer word is the operation it
decodes to; a placed command byte is performed by APPLY as the role it decodes to; a placed train is decoded by POLL
and its row run on what CapRead() leaves. -/
def Obligations.StepRunsTheDecodedInstruction : Prop :=
  ∀ s : State, s.cfg.WF →
    (∀ w, step (placeCode (.seq2 w) s) = exec (decodeCode s.cfg (.seq2 w)) (placeCode (.seq2 w) s)) ∧
    (∀ b, step (placeCode (.cmd8 b) s) = andThen (exec (decodeCode s.cfg (.cmd8 b)) (placeCode (.cmd8 b) s))
      fun t => .next { t with cmdv := false, seq := .flush }) ∧
    (∀ p, p.length ≤ s.cfg.captureMax →
      step (placeCode (.train p) s) = exec (decodeCode s.cfg (.train p)) (afterCapture (placeCode (.train p) s)))

/-- R27: every operation ends with `SEQ <- (SEQ + 1) mod 4` (the numbering is the spec's decision D19). -/
def Obligations.SequencerAdvances : Prop :=
  ∀ s t : State, step s = .next t → t.seq.toBits.toNat = (s.seq.toBits.toNat + 1) % 4

/-- The invariant is kept by every step: the configuration well formed (R6), `PAL` in range (R25), the sizes of
`PIX`, of the display frame and of every Show event, the display holding what the last Show event carried (R55), the
capture buffer bounded (R50), a latched command waiting for APPLY only (R148, R149), `PIX` being the present state's
frame at `TF` until APPLY (R146, R154), and off means dark (R177). Its clause that `T` equals `TF` from RENDER_ALL
to the end of the cycle is the model's choice (log 6): the timer stands still between samples. -/
def Obligations.StepKeepsInvariant : Prop :=
  ∀ s t : State, Inv s → step s = .next t → Inv t

/-- R151, R152, R160: in a state that meets the invariant a step always completes: no fault, no refusal, no halt. -/
def Obligations.StepAlwaysCompletes : Prop :=
  ∀ s : State, Inv s → ∃ t, step s = .next t

/-- R145, R154, R155 (the latter two derived by the spec, with its decision D24): one whole cycle. The frame shown
is the one drawn from the state at the cycle's start, at one time `TF`; the command of the captured train takes
effect on the animation state after that; a cycle that applies OFF shows the blank frame twice instead. (The time
and the train of the cycle are the model's draws: log 6, log 7.) -/
def Obligations.CycleShowsOneFrame : Prop :=
  ∀ s : State, Inv s → s.seq = .renderAll →
    ∃ t : State, Host.Core.run Sys2Proof.core 4 s = .next t ∧ t.seq = .renderAll ∧ t.cmdv = false ∧ s.t ≤ t.tf ∧
      CommandEffect (decode s.cfg (captured (latchTime s))) s t ∧
      (decode s.cfg (captured (latchTime s)) = some s.cfg.codeOff →
        t.shows = s.shows ++ [blankFrame s.cfg, blankFrame s.cfg]) ∧
      (decode s.cfg (captured (latchTime s)) ≠ some s.cfg.codeOff → t.shows = s.shows ++ [frameOf s t.tf])

/-- R181, U12: what `TF`, `CMD`, `PIX` and the display frame hold at the start of a cycle is never shown: two
machines that differ in them alone, and have the same capture buffer and inputs, have the same Show events after any
number of steps. The capture buffer, which R181 leaves unspecified too, is not covered: its pulses may hold the
first command. (`rgb`, which may differ too, is the model's own, log 5.) -/
def Obligations.UnspecifiedContentsNeverShown : Prop :=
  ∀ (s s' : State) (n : Nat) (t t' : State), Inv s → Inv s' → s.seq = .renderAll → SameButUnspecified s s' →
    Host.Core.run Sys2Proof.core n s = .next t → Host.Core.run Sys2Proof.core n s' = .next t' → t.shows = t'.shows

/-- R181 (with the spec's decisions D15, D22): the first frame after reset is step 0 of the reset palette in every
pixel, in Pulse mode, powered, when the first time sample falls within the first time unit. (The ticks before the
sample are the model's draw: log 6.) -/
def Obligations.FirstFrameAfterReset : Prop :=
  ∀ s : State, AtReset s → s.cfg.resetMode = .pulse → s.cfg.resetPwr = true →
    ticksDue s < s.cfg.speedTicks[s.cfg.resetSpd] →
    ∃ t, step s = .next t ∧ ∀ i < s.cfg.pixelCount, pixRead t i = palRead s.cfg s.cfg.resetPal 0

/-- R177: while the block is off, every Show event a step adds is blank. -/
def Obligations.OffStaysDark : Prop :=
  ∀ s t : State, Inv s → s.pwr = false → step s = .next t →
    t.shows = s.shows ∨ t.shows = s.shows ++ [blankFrame s.cfg]

/-- R20, R26: only COLOR writes `PAL`, only ANIM `MODE`, only SPEED `SPD`, only OFF and ON `PWR`, run by themselves
or by APPLY. -/
def Obligations.AnimationStateWriters : Prop :=
  ∀ (i : Instr) (s t : State), exec i s = .next t →
    (t.pal ≠ s.pal → i = .color ∨ Applies i s s.cfg.codeColor) ∧
    (t.mode ≠ s.mode → i = .anim ∨ Applies i s s.cfg.codeAnim) ∧
    (t.spd ≠ s.spd → i = .speed ∨ Applies i s s.cfg.codeSpeed) ∧
    (t.pwr ≠ s.pwr → i = .off ∨ i = .on ∨ Applies i s s.cfg.codeOff ∨ Applies i s s.cfg.codeOn)

/-- R30, R64: only RENDER_ALL and OFF write pixels; a Show event carries the buffer as it then is, only OFF and
FLUSH make one, and none is ever taken back. -/
def Obligations.OnlyShowReachesTheDisplay : Prop :=
  ∀ (i : Instr) (s t : State), exec i s = .next t →
    (t.pix ≠ s.pix → i = .renderAll ∨ i = .off ∨ Applies i s s.cfg.codeOff) ∧
    ((t.shows = s.shows ∧ t.disp = s.disp) ∨
      ((i = .off ∨ i = .flush ∨ Applies i s s.cfg.codeOff) ∧ t.shows = s.shows ++ [t.pix] ∧ t.disp = t.pix))

/-- R125, R153: no instruction sets the timer back, and only RENDER_ALL writes `TF`. That RENDER_ALL leaves `T`
equal to `TF` is the model's choice (log 6). -/
def Obligations.TimeNeverRunsBackwards : Prop :=
  ∀ (i : Instr) (s t : State), exec i s = .next t →
    s.t ≤ t.t ∧ (i = .renderAll → t.tf = t.t) ∧ (i ≠ .renderAll → t.tf = s.tf)

/-- R25, R34, R66, R119: whatever instruction runs, the configuration is unchanged, `PAL` stays in range and `PIX`
keeps one word a pixel. -/
def Obligations.EveryInstructionKeepsRanges : Prop :=
  ∀ (i : Instr) (s t : State), exec i s = .next t →
    t.cfg = s.cfg ∧ (s.pal < s.cfg.paletteCount → t.pal < t.cfg.paletteCount) ∧
    (Memory.wf s.cfg s.pix → Memory.wf t.cfg t.pix)

/-- R6: a configuration that is not well formed (log 2) is refused by every instruction and by a step. -/
def Obligations.IllFormedConfigurationRefused : Prop :=
  ∀ (i : Instr) (s : State), ¬ s.cfg.WF →
    exec i s = .refused .illFormedConfiguration ∧ step s = .refused .illFormedConfiguration

/-- R181, U12, R30: the invariant of two machines behind `UnspecifiedContentsNeverShown`: when at the start of a cycle
they differ at most in `TF`, `CMD`, `PIX`, the display frame (and `rgb`, the model's own, log 5), or later in a
cycle at most in a `CMD` not valid and the display frame, then a step of each leaves them so, with the same Show
events. -/
def Obligations.StepKeepsShowAlike : Prop :=
  ∀ s s' t t' : State, Inv s → Inv s' → ShowAlike s s' → step s = .next t → step s' = .next t' →
    ShowAlike t t' ∧ t.shows = t'.shows
end

