-- ==== Sys2Proof/Laws/WellFormed.lean ====
section
/-! SUPPORT. The clauses of a well-formed configuration by name (R6). -/

namespace Sys2Proof

theorem wf_paletteCount_pos {c : Config} (h : c.WF) : 0 < c.paletteCount := h.1

theorem wf_palrom_length {c : Config} (h : c.WF) : c.palrom.length = c.paletteCount := h.2.1

theorem wf_speedTicks_pos {c : Config} (h : c.WF) (k : Fin speedTierCount) : 0 < c.speedTicks[k] := h.2.2.2.1.1 k

theorem wf_speedTicks_two {c : Config} (h : c.WF) : c.speedTicks[2] = 100 := h.2.2.2.1.2

/-- A train one pulse too long still fits the capture buffer: the upper length test is live (D7). -/
theorem wf_maxPulses_lt_captureMax {c : Config} (h : c.WF) : c.maxPulses < c.captureMax := h.2.2.2.2.1.2

theorem wf_codes_nodup {c : Config} (h : c.WF) : c.codes.Nodup := h.2.2.2.2.2.1

theorem wf_header_disjoint {c : Config} (h : c.WF) : c.repeatSpace.Disjoint c.leaderSpace := h.2.2.2.2.2.2.2.1

theorem wf_space_disjoint {c : Config} (h : c.WF) : c.space0.Disjoint c.space1 := h.2.2.2.2.2.2.2.2.1

theorem wf_resetPal {c : Config} (h : c.WF) : c.resetPal < c.paletteCount := h.2.2.2.2.2.2.2.2.2

end Sys2Proof
end

