-- ==== Sys2Proof/Laws/Decode.lean ====
section
/-! SUPPORT. One lemma per stage of the decoder, in the terms of WellFormed.lean's index predicates, and what the encoder's
cells decode to. -/

namespace Sys2Proof

theorem inWin_iff {v : Pulse} {w : Window} : inWin v w = true ↔ w.Contains v := by
  simp [inWin, Window.Contains]

theorem validate_iff {c : Config} {n : Nat} : validate c n = true ↔ c.minPulses ≤ n ∧ n ≤ c.maxPulses := by
  simp [validate]

/-- A header test that is true reads two pulses that exist (R92, R93). -/
theorem isRepeat_eq {c : Config} {p : Train} :
    isRepeat c p = (decide (2 ≤ p.length) && (inWin (Train.pulseAt p 0) c.leaderMark &&
      inWin (Train.pulseAt p 1) c.repeatSpace)) := by
  match p with
  | [] => rfl
  | [_] => rfl
  | _ :: _ :: _ => simp [isRepeat]

theorem isFullHeader_eq {c : Config} {p : Train} :
    isFullHeader c p = (decide (2 ≤ p.length) && (inWin (Train.pulseAt p 0) c.leaderMark &&
      inWin (Train.pulseAt p 1) c.leaderSpace)) := by
  match p with
  | [] => rfl
  | [_] => rfl
  | _ :: _ :: _ => simp [isFullHeader]

theorem isRepeat_iff {c : Config} {p : Train} : isRepeat c p = true ↔ Train.RepeatHeader c p := by
  rw [isRepeat_eq]; simp [inWin_iff]

theorem isFullHeader_iff {c : Config} {p : Train} : isFullHeader c p = true ↔ Train.FullHeader c p := by
  rw [isFullHeader_eq]; simp [inWin_iff]

/-- A full header is no repeat header: the two space windows do not meet (R98). -/
theorem isRepeat_of_fullHeader {c : Config} (hc : c.WF) {p : Train} (h : Train.FullHeader c p) :
    isRepeat c p = false := by
  cases hr : isRepeat c p
  · rfl
  · have h2 := isRepeat_iff.1 hr
    have := wf_header_disjoint hc
    simp only [Train.FullHeader, Train.RepeatHeader, Window.Contains, Window.Disjoint] at *
    omega

theorem pulseAt_drop (p : Train) (k : Nat) : Train.pulseAt (p.drop 2) k = Train.pulseAt p (2 + k) := by
  simp [Train.pulseAt]

/-- A cell is a 0 (R95). -/
theorem cell_eq_false {c : Config} {m s : Pulse} :
    cell c m s = some false ↔ c.bitMark.Contains m ∧ c.space0.Contains s := by
  unfold cell
  simp only [inWin_iff]
  split_ifs with h1 h2 h3
  · exact iff_of_true rfl ⟨h1, h2⟩
  · exact iff_of_false (by simp) fun h => h2 h.2
  · exact iff_of_false (by simp) fun h => h2 h.2
  · exact iff_of_false (by simp) fun h => h1 h.1

/-- A cell is a 1 (R95); the two spaces do not meet. -/
theorem cell_eq_true {c : Config} (h : c.WF) {m s : Pulse} :
    cell c m s = some true ↔ c.bitMark.Contains m ∧ c.space1.Contains s := by
  have hd := wf_space_disjoint h
  unfold cell
  simp only [inWin_iff]
  split_ifs with h1 h2 h3
  · exact iff_of_false (by simp) fun h => by simp only [Window.Contains, Window.Disjoint] at *; omega
  · exact iff_of_true rfl ⟨h1, h3⟩
  · exact iff_of_false (by simp) fun h => h3 h.2
  · exact iff_of_false (by simp) fun h => h1 h.1

/-- A valid cell is one that decodes (R74, R95). -/
theorem cellOk_iff {c : Config} (hc : c.WF) {p : Train} {k : Nat} : Train.CellOk c p k ↔
    ∃ b, cell c (Train.pulseAt (p.drop 2) (2 * k)) (Train.pulseAt (p.drop 2) (2 * k + 1)) = some b := by
  rw [pulseAt_drop, pulseAt_drop, show 2 + (2 * k + 1) = 3 + 2 * k by omega]
  constructor
  · rintro ⟨h1, h2 | h2⟩
    · exact ⟨false, cell_eq_false.2 ⟨h1, h2⟩⟩
    · exact ⟨true, (cell_eq_true hc).2 ⟨h1, h2⟩⟩
  · rintro ⟨b, hb⟩
    cases b
    · exact ⟨(cell_eq_false.1 hb).1, .inl (cell_eq_false.1 hb).2⟩
    · exact ⟨((cell_eq_true hc).1 hb).1, .inr ((cell_eq_true hc).1 hb).2⟩

theorem cells_length {c : Config} {k : Nat} {p : Train} {bs : List Bool} (h : cells c k p = some bs) :
    bs.length = k := by
  induction k generalizing p bs with
  | zero => simp [cells] at h; simp [← h]
  | succ k ih =>
    match p with
    | [] => simp [cells] at h
    | [_] => simp [cells] at h
    | m :: s :: rest =>
      unfold cells at h
      split at h
      · next b bs' hb hbs => cases h; simp [ih hbs]
      · cases h

/-- The decoded cells are the cells of the pairs, in order. -/
theorem cells_eq_some {c : Config} {k : Nat} {p : Train} {bs : List Bool} (h : cells c k p = some bs) :
    2 * k ≤ p.length ∧ ∀ j < k, ∃ b, bs[j]? = some b ∧
      cell c (Train.pulseAt p (2 * j)) (Train.pulseAt p (2 * j + 1)) = some b := by
  induction k generalizing p bs with
  | zero => simp
  | succ k ih =>
    match p with
    | [] => simp [cells] at h
    | [_] => simp [cells] at h
    | m :: s :: rest =>
      unfold cells at h
      split at h
      · next b bs' hb hbs =>
        cases h
        obtain ⟨hl, hj⟩ := ih hbs
        refine ⟨by simp; omega, ?_⟩
        rintro (_ | j) hlt
        · exact ⟨b, rfl, hb⟩
        · obtain ⟨b', h1, h2⟩ := hj j (by omega)
          exact ⟨b', by simpa using h1, by simpa [Train.pulseAt, Nat.mul_add] using h2⟩
      · cases h

/-- Valid pairs decode. -/
theorem cells_completes {c : Config} {k : Nat} {p : Train} (hl : 2 * k ≤ p.length)
    (h : ∀ j < k, ∃ b, cell c (Train.pulseAt p (2 * j)) (Train.pulseAt p (2 * j + 1)) = some b) :
    ∃ bs, cells c k p = some bs := by
  induction k generalizing p with
  | zero => exact ⟨[], rfl⟩
  | succ k ih =>
    match p, hl with
    | [], hl => simp at hl
    | [_], hl => simp at hl; omega
    | m :: s :: rest, hl =>
      obtain ⟨b, hb⟩ := h 0 (by omega)
      obtain ⟨bs, hbs⟩ := ih (p := rest) (by simp at hl; omega)
        (by intro j hj; simpa [Train.pulseAt, Nat.mul_add] using h (j + 1) (by omega))
      have hb' : cell c m s = some b := hb
      exact ⟨b :: bs, by simp [cells, hb', hbs]⟩

/-- Bit `j` of a list of bits read as a number, first bit least significant (R96). -/
theorem testBit_bitsToNat (bs : List Bool) (j : Nat) : (bitsToNat bs).testBit j = (bs[j]?).getD false := by
  induction bs generalizing j with
  | nil => simp [bitsToNat]
  | cons b bs ih =>
    have e : bitsToNat (b :: bs) = Nat.bit b (bitsToNat bs) := by
      cases b <;> (simp [bitsToNat, Nat.bit]; try omega)
    rw [e]
    cases j with
    | zero => simp
    | succ j => simp [Nat.testBit_bit_succ, ih]

/-- Bit `j` of byte `k` is cell `8k + j` (R75). -/
theorem byteAt_getLsbD (bs : List Bool) (k : Nat) {j : Nat} (hj : j < 8) :
    (byteAt bs k).getLsbD j = (bs[8 * k + j]?).getD false := by
  simp only [byteAt, BitVec.getLsbD_ofNat, hj, testBit_bitsToNat, List.getElem?_take, decide_true, Bool.true_and, if_true,
    List.getElem?_drop]

/-- The whole of DECODE's classification, in order (R90). -/
theorem decodeTrain_cases (c : Config) (p : Train) :
    (¬ Train.LengthOk c p ∧ decodeTrain c p = .illegalTrain p) ∨
    (Train.LengthOk c p ∧ isRepeat c p = true ∧ decodeTrain c p = .repeatCode p) ∨
    (Train.LengthOk c p ∧ isRepeat c p = false ∧
      ((¬ (isFullHeader c p = true ∧ 66 ≤ p.length) ∨ cells c dataBits (p.drop 2) = none) ∧
        decodeTrain c p = .illegalTrain p)) ∨
    (Train.LengthOk c p ∧ isRepeat c p = false ∧ isFullHeader c p = true ∧ 66 ≤ p.length ∧
      ∃ bs, cells c dataBits (p.drop 2) = some bs ∧
        decodeTrain c p = .frame (byteAt bs 0) (byteAt bs 1) (byteAt bs 2) (byteAt bs 3)) := by
  by_cases h1 : Train.LengthOk c p
  · have hv := validate_iff.2 h1
    by_cases h2 : isRepeat c p = true
    · exact .inr (.inl ⟨h1, h2, by simp [decodeTrain, hv, h2]⟩)
    · by_cases h3 : isFullHeader c p = true ∧ 66 ≤ p.length
      · have h4 : framePulses ≤ p.length := h3.2
        cases h5 : cells c dataBits (p.drop 2) with
        | none => exact .inr (.inr (.inl ⟨h1, by simpa using h2, .inr rfl, by simp [decodeTrain, hv, h2, h3.1, h4, h5]⟩))
        | some bs =>
          exact .inr (.inr (.inr ⟨h1, by simpa using h2, h3.1, h3.2, bs, rfl, by simp [decodeTrain, hv, h2, h3.1, h4, h5]⟩))
      · refine .inr (.inr (.inl ⟨h1, by simpa using h2, .inl h3, ?_⟩))
        have h4 : (isFullHeader c p && decide (framePulses ≤ p.length)) = false := by
          have : framePulses = 66 := rfl
          cases hf : isFullHeader c p <;> simp_all
        simp [decodeTrain, hv, h2, h4]
  · have hv : validate c p.length = false := by
      cases hv : validate c p.length
      · rfl
      · exact absurd (validate_iff.1 hv) h1
    exact .inl ⟨h1, by simp [decodeTrain, hv]⟩

/-- DECODE gives a command exactly for a frame, and it is byte 2 (R97). -/
theorem decode_eq_some {c : Config} {p : Train} {b : Byte} :
    decode c p = some b ↔ ∃ b0 b1 b3, decodeTrain c p = .frame b0 b1 b b3 := by
  unfold decode
  cases h : decodeTrain c p <;> simp [commandOf]

/-! ## What the encoder's cells decode to -/

theorem encodeBit_length (b : Bool) : (encodeBit b).length = 2 := by cases b <;> rfl

theorem encodeByte_length (b : Byte) : (encodeByte b).length = 16 := by simp [encodeByte, encodeBit_length]

/-- The canonical frame has 67 pulses (R86). -/
theorem canonicalFrame_length (b0 b1 b2 b3 : Byte) : (canonicalFrame b0 b1 b2 b3).length = 67 := by
  simp [canonicalFrame, encodeByte_length]

theorem cells_encodeBit {c : Config} (hc : c.WF) (hk : c.CarriesCanonical) (b : Bool) (k : Nat) (rest : Train) :
    cells c (k + 1) (encodeBit b ++ rest) = (cells c k rest).map (b :: ·) := by
  obtain ⟨-, -, -, h1, h2, h3⟩ := hk
  have h0 : cell c 562 562 = some false := cell_eq_false.2 ⟨h1, h2⟩
  have h1 : cell c 562 1687 = some true := (cell_eq_true hc).2 ⟨h1, h3⟩
  cases b
  · show (match cell c 562 562, cells c k rest with | some b, some bs => some (b :: bs) | _, _ => none) = _
    rw [h0]; cases cells c k rest <;> rfl
  · show (match cell c 562 1687, cells c k rest with | some b, some bs => some (b :: bs) | _, _ => none) = _
    rw [h1]; cases cells c k rest <;> rfl

/-- The bits of a byte, bit 0 first (R75). -/
def byteBits (b : Byte) : List Bool :=
  [b.getLsbD 0, b.getLsbD 1, b.getLsbD 2, b.getLsbD 3, b.getLsbD 4, b.getLsbD 5, b.getLsbD 6, b.getLsbD 7]

theorem cells_encodeByte {c : Config} (hc : c.WF) (hk : c.CarriesCanonical) (b : Byte) (k : Nat) (rest : Train) :
    cells c (k + 8) (encodeByte b ++ rest) = (cells c k rest).map (byteBits b ++ ·) := by
  simp only [encodeByte, List.append_assoc, cells_encodeBit hc hk, Option.map_map]
  rfl

/-- A byte assembled from its own bits is that byte (R96). -/
theorem byteAt_of_bits {b : Byte} {k : Nat} {bs : List Bool} (h : ∀ j < 8, bs[8 * k + j]? = some (b.getLsbD j)) :
    byteAt bs k = b := by
  apply BitVec.eq_of_getLsbD_eq
  intro j hj
  rw [byteAt_getLsbD _ _ hj, h j hj]
  rfl

end Sys2Proof
end

