-- ==== Sys2Proof/Laws/State.lean ====
section
/-! SUPPORT. One lemma per field per update of State, each true by rfl. -/

namespace Sys2Proof.Machine

/-! ## setPal -/

@[simp] theorem setPal_cfg (p : Nat) (s : State) : (setPal p s).cfg = s.cfg := rfl
@[simp] theorem setPal_pal (p : Nat) (s : State) : (setPal p s).pal = p := rfl
@[simp] theorem setPal_mode (p : Nat) (s : State) : (setPal p s).mode = s.mode := rfl
@[simp] theorem setPal_spd (p : Nat) (s : State) : (setPal p s).spd = s.spd := rfl
@[simp] theorem setPal_pwr (p : Nat) (s : State) : (setPal p s).pwr = s.pwr := rfl
@[simp] theorem setPal_seq (p : Nat) (s : State) : (setPal p s).seq = s.seq := rfl
@[simp] theorem setPal_t (p : Nat) (s : State) : (setPal p s).t = s.t := rfl
@[simp] theorem setPal_tf (p : Nat) (s : State) : (setPal p s).tf = s.tf := rfl
@[simp] theorem setPal_cmdv (p : Nat) (s : State) : (setPal p s).cmdv = s.cmdv := rfl
@[simp] theorem setPal_cmd (p : Nat) (s : State) : (setPal p s).cmd = s.cmd := rfl
@[simp] theorem setPal_pix (p : Nat) (s : State) : (setPal p s).pix = s.pix := rfl
@[simp] theorem setPal_cap (p : Nat) (s : State) : (setPal p s).cap = s.cap := rfl
@[simp] theorem setPal_disp (p : Nat) (s : State) : (setPal p s).disp = s.disp := rfl
@[simp] theorem setPal_shows (p : Nat) (s : State) : (setPal p s).shows = s.shows := rfl
@[simp] theorem setPal_rgb (p : Nat) (s : State) : (setPal p s).rgb = s.rgb := rfl
@[simp] theorem setPal_clk (p : Nat) (s : State) : (setPal p s).clk = s.clk := rfl
@[simp] theorem setPal_rx (p : Nat) (s : State) : (setPal p s).rx = s.rx := rfl
@[simp] theorem setPal_draws (p : Nat) (s : State) : (setPal p s).draws = s.draws := rfl

/-! ## setMode -/

@[simp] theorem setMode_cfg (m : Mode) (s : State) : (setMode m s).cfg = s.cfg := rfl
@[simp] theorem setMode_pal (m : Mode) (s : State) : (setMode m s).pal = s.pal := rfl
@[simp] theorem setMode_mode (m : Mode) (s : State) : (setMode m s).mode = m := rfl
@[simp] theorem setMode_spd (m : Mode) (s : State) : (setMode m s).spd = s.spd := rfl
@[simp] theorem setMode_pwr (m : Mode) (s : State) : (setMode m s).pwr = s.pwr := rfl
@[simp] theorem setMode_seq (m : Mode) (s : State) : (setMode m s).seq = s.seq := rfl
@[simp] theorem setMode_t (m : Mode) (s : State) : (setMode m s).t = s.t := rfl
@[simp] theorem setMode_tf (m : Mode) (s : State) : (setMode m s).tf = s.tf := rfl
@[simp] theorem setMode_cmdv (m : Mode) (s : State) : (setMode m s).cmdv = s.cmdv := rfl
@[simp] theorem setMode_cmd (m : Mode) (s : State) : (setMode m s).cmd = s.cmd := rfl
@[simp] theorem setMode_pix (m : Mode) (s : State) : (setMode m s).pix = s.pix := rfl
@[simp] theorem setMode_cap (m : Mode) (s : State) : (setMode m s).cap = s.cap := rfl
@[simp] theorem setMode_disp (m : Mode) (s : State) : (setMode m s).disp = s.disp := rfl
@[simp] theorem setMode_shows (m : Mode) (s : State) : (setMode m s).shows = s.shows := rfl
@[simp] theorem setMode_rgb (m : Mode) (s : State) : (setMode m s).rgb = s.rgb := rfl
@[simp] theorem setMode_clk (m : Mode) (s : State) : (setMode m s).clk = s.clk := rfl
@[simp] theorem setMode_rx (m : Mode) (s : State) : (setMode m s).rx = s.rx := rfl
@[simp] theorem setMode_draws (m : Mode) (s : State) : (setMode m s).draws = s.draws := rfl

/-! ## setSpd -/

@[simp] theorem setSpd_cfg (k : Fin speedTierCount) (s : State) : (setSpd k s).cfg = s.cfg := rfl
@[simp] theorem setSpd_pal (k : Fin speedTierCount) (s : State) : (setSpd k s).pal = s.pal := rfl
@[simp] theorem setSpd_mode (k : Fin speedTierCount) (s : State) : (setSpd k s).mode = s.mode := rfl
@[simp] theorem setSpd_spd (k : Fin speedTierCount) (s : State) : (setSpd k s).spd = k := rfl
@[simp] theorem setSpd_pwr (k : Fin speedTierCount) (s : State) : (setSpd k s).pwr = s.pwr := rfl
@[simp] theorem setSpd_seq (k : Fin speedTierCount) (s : State) : (setSpd k s).seq = s.seq := rfl
@[simp] theorem setSpd_t (k : Fin speedTierCount) (s : State) : (setSpd k s).t = s.t := rfl
@[simp] theorem setSpd_tf (k : Fin speedTierCount) (s : State) : (setSpd k s).tf = s.tf := rfl
@[simp] theorem setSpd_cmdv (k : Fin speedTierCount) (s : State) : (setSpd k s).cmdv = s.cmdv := rfl
@[simp] theorem setSpd_cmd (k : Fin speedTierCount) (s : State) : (setSpd k s).cmd = s.cmd := rfl
@[simp] theorem setSpd_pix (k : Fin speedTierCount) (s : State) : (setSpd k s).pix = s.pix := rfl
@[simp] theorem setSpd_cap (k : Fin speedTierCount) (s : State) : (setSpd k s).cap = s.cap := rfl
@[simp] theorem setSpd_disp (k : Fin speedTierCount) (s : State) : (setSpd k s).disp = s.disp := rfl
@[simp] theorem setSpd_shows (k : Fin speedTierCount) (s : State) : (setSpd k s).shows = s.shows := rfl
@[simp] theorem setSpd_rgb (k : Fin speedTierCount) (s : State) : (setSpd k s).rgb = s.rgb := rfl
@[simp] theorem setSpd_clk (k : Fin speedTierCount) (s : State) : (setSpd k s).clk = s.clk := rfl
@[simp] theorem setSpd_rx (k : Fin speedTierCount) (s : State) : (setSpd k s).rx = s.rx := rfl
@[simp] theorem setSpd_draws (k : Fin speedTierCount) (s : State) : (setSpd k s).draws = s.draws := rfl

/-! ## setPwr -/

@[simp] theorem setPwr_cfg (b : Bool) (s : State) : (setPwr b s).cfg = s.cfg := rfl
@[simp] theorem setPwr_pal (b : Bool) (s : State) : (setPwr b s).pal = s.pal := rfl
@[simp] theorem setPwr_mode (b : Bool) (s : State) : (setPwr b s).mode = s.mode := rfl
@[simp] theorem setPwr_spd (b : Bool) (s : State) : (setPwr b s).spd = s.spd := rfl
@[simp] theorem setPwr_pwr (b : Bool) (s : State) : (setPwr b s).pwr = b := rfl
@[simp] theorem setPwr_seq (b : Bool) (s : State) : (setPwr b s).seq = s.seq := rfl
@[simp] theorem setPwr_t (b : Bool) (s : State) : (setPwr b s).t = s.t := rfl
@[simp] theorem setPwr_tf (b : Bool) (s : State) : (setPwr b s).tf = s.tf := rfl
@[simp] theorem setPwr_cmdv (b : Bool) (s : State) : (setPwr b s).cmdv = s.cmdv := rfl
@[simp] theorem setPwr_cmd (b : Bool) (s : State) : (setPwr b s).cmd = s.cmd := rfl
@[simp] theorem setPwr_pix (b : Bool) (s : State) : (setPwr b s).pix = s.pix := rfl
@[simp] theorem setPwr_cap (b : Bool) (s : State) : (setPwr b s).cap = s.cap := rfl
@[simp] theorem setPwr_disp (b : Bool) (s : State) : (setPwr b s).disp = s.disp := rfl
@[simp] theorem setPwr_shows (b : Bool) (s : State) : (setPwr b s).shows = s.shows := rfl
@[simp] theorem setPwr_rgb (b : Bool) (s : State) : (setPwr b s).rgb = s.rgb := rfl
@[simp] theorem setPwr_clk (b : Bool) (s : State) : (setPwr b s).clk = s.clk := rfl
@[simp] theorem setPwr_rx (b : Bool) (s : State) : (setPwr b s).rx = s.rx := rfl
@[simp] theorem setPwr_draws (b : Bool) (s : State) : (setPwr b s).draws = s.draws := rfl

/-! ## setSeq -/

@[simp] theorem setSeq_cfg (q : SeqOp) (s : State) : (setSeq q s).cfg = s.cfg := rfl
@[simp] theorem setSeq_pal (q : SeqOp) (s : State) : (setSeq q s).pal = s.pal := rfl
@[simp] theorem setSeq_mode (q : SeqOp) (s : State) : (setSeq q s).mode = s.mode := rfl
@[simp] theorem setSeq_spd (q : SeqOp) (s : State) : (setSeq q s).spd = s.spd := rfl
@[simp] theorem setSeq_pwr (q : SeqOp) (s : State) : (setSeq q s).pwr = s.pwr := rfl
@[simp] theorem setSeq_seq (q : SeqOp) (s : State) : (setSeq q s).seq = q := rfl
@[simp] theorem setSeq_t (q : SeqOp) (s : State) : (setSeq q s).t = s.t := rfl
@[simp] theorem setSeq_tf (q : SeqOp) (s : State) : (setSeq q s).tf = s.tf := rfl
@[simp] theorem setSeq_cmdv (q : SeqOp) (s : State) : (setSeq q s).cmdv = s.cmdv := rfl
@[simp] theorem setSeq_cmd (q : SeqOp) (s : State) : (setSeq q s).cmd = s.cmd := rfl
@[simp] theorem setSeq_pix (q : SeqOp) (s : State) : (setSeq q s).pix = s.pix := rfl
@[simp] theorem setSeq_cap (q : SeqOp) (s : State) : (setSeq q s).cap = s.cap := rfl
@[simp] theorem setSeq_disp (q : SeqOp) (s : State) : (setSeq q s).disp = s.disp := rfl
@[simp] theorem setSeq_shows (q : SeqOp) (s : State) : (setSeq q s).shows = s.shows := rfl
@[simp] theorem setSeq_rgb (q : SeqOp) (s : State) : (setSeq q s).rgb = s.rgb := rfl
@[simp] theorem setSeq_clk (q : SeqOp) (s : State) : (setSeq q s).clk = s.clk := rfl
@[simp] theorem setSeq_rx (q : SeqOp) (s : State) : (setSeq q s).rx = s.rx := rfl
@[simp] theorem setSeq_draws (q : SeqOp) (s : State) : (setSeq q s).draws = s.draws := rfl

/-! ## setPix -/

@[simp] theorem setPix_cfg (p : List Pixel) (s : State) : (setPix p s).cfg = s.cfg := rfl
@[simp] theorem setPix_pal (p : List Pixel) (s : State) : (setPix p s).pal = s.pal := rfl
@[simp] theorem setPix_mode (p : List Pixel) (s : State) : (setPix p s).mode = s.mode := rfl
@[simp] theorem setPix_spd (p : List Pixel) (s : State) : (setPix p s).spd = s.spd := rfl
@[simp] theorem setPix_pwr (p : List Pixel) (s : State) : (setPix p s).pwr = s.pwr := rfl
@[simp] theorem setPix_seq (p : List Pixel) (s : State) : (setPix p s).seq = s.seq := rfl
@[simp] theorem setPix_t (p : List Pixel) (s : State) : (setPix p s).t = s.t := rfl
@[simp] theorem setPix_tf (p : List Pixel) (s : State) : (setPix p s).tf = s.tf := rfl
@[simp] theorem setPix_cmdv (p : List Pixel) (s : State) : (setPix p s).cmdv = s.cmdv := rfl
@[simp] theorem setPix_cmd (p : List Pixel) (s : State) : (setPix p s).cmd = s.cmd := rfl
@[simp] theorem setPix_pix (p : List Pixel) (s : State) : (setPix p s).pix = p := rfl
@[simp] theorem setPix_cap (p : List Pixel) (s : State) : (setPix p s).cap = s.cap := rfl
@[simp] theorem setPix_disp (p : List Pixel) (s : State) : (setPix p s).disp = s.disp := rfl
@[simp] theorem setPix_shows (p : List Pixel) (s : State) : (setPix p s).shows = s.shows := rfl
@[simp] theorem setPix_rgb (p : List Pixel) (s : State) : (setPix p s).rgb = s.rgb := rfl
@[simp] theorem setPix_clk (p : List Pixel) (s : State) : (setPix p s).clk = s.clk := rfl
@[simp] theorem setPix_rx (p : List Pixel) (s : State) : (setPix p s).rx = s.rx := rfl
@[simp] theorem setPix_draws (p : List Pixel) (s : State) : (setPix p s).draws = s.draws := rfl

/-! ## setRgb -/

@[simp] theorem setRgb_cfg (v : Pixel) (s : State) : (setRgb v s).cfg = s.cfg := rfl
@[simp] theorem setRgb_pal (v : Pixel) (s : State) : (setRgb v s).pal = s.pal := rfl
@[simp] theorem setRgb_mode (v : Pixel) (s : State) : (setRgb v s).mode = s.mode := rfl
@[simp] theorem setRgb_spd (v : Pixel) (s : State) : (setRgb v s).spd = s.spd := rfl
@[simp] theorem setRgb_pwr (v : Pixel) (s : State) : (setRgb v s).pwr = s.pwr := rfl
@[simp] theorem setRgb_seq (v : Pixel) (s : State) : (setRgb v s).seq = s.seq := rfl
@[simp] theorem setRgb_t (v : Pixel) (s : State) : (setRgb v s).t = s.t := rfl
@[simp] theorem setRgb_tf (v : Pixel) (s : State) : (setRgb v s).tf = s.tf := rfl
@[simp] theorem setRgb_cmdv (v : Pixel) (s : State) : (setRgb v s).cmdv = s.cmdv := rfl
@[simp] theorem setRgb_cmd (v : Pixel) (s : State) : (setRgb v s).cmd = s.cmd := rfl
@[simp] theorem setRgb_pix (v : Pixel) (s : State) : (setRgb v s).pix = s.pix := rfl
@[simp] theorem setRgb_cap (v : Pixel) (s : State) : (setRgb v s).cap = s.cap := rfl
@[simp] theorem setRgb_disp (v : Pixel) (s : State) : (setRgb v s).disp = s.disp := rfl
@[simp] theorem setRgb_shows (v : Pixel) (s : State) : (setRgb v s).shows = s.shows := rfl
@[simp] theorem setRgb_rgb (v : Pixel) (s : State) : (setRgb v s).rgb = v := rfl
@[simp] theorem setRgb_clk (v : Pixel) (s : State) : (setRgb v s).clk = s.clk := rfl
@[simp] theorem setRgb_rx (v : Pixel) (s : State) : (setRgb v s).rx = s.rx := rfl
@[simp] theorem setRgb_draws (v : Pixel) (s : State) : (setRgb v s).draws = s.draws := rfl

/-! ## showFrame -/

@[simp] theorem showFrame_cfg (s : State) : (showFrame s).cfg = s.cfg := rfl
@[simp] theorem showFrame_pal (s : State) : (showFrame s).pal = s.pal := rfl
@[simp] theorem showFrame_mode (s : State) : (showFrame s).mode = s.mode := rfl
@[simp] theorem showFrame_spd (s : State) : (showFrame s).spd = s.spd := rfl
@[simp] theorem showFrame_pwr (s : State) : (showFrame s).pwr = s.pwr := rfl
@[simp] theorem showFrame_seq (s : State) : (showFrame s).seq = s.seq := rfl
@[simp] theorem showFrame_t (s : State) : (showFrame s).t = s.t := rfl
@[simp] theorem showFrame_tf (s : State) : (showFrame s).tf = s.tf := rfl
@[simp] theorem showFrame_cmdv (s : State) : (showFrame s).cmdv = s.cmdv := rfl
@[simp] theorem showFrame_cmd (s : State) : (showFrame s).cmd = s.cmd := rfl
@[simp] theorem showFrame_pix (s : State) : (showFrame s).pix = s.pix := rfl
@[simp] theorem showFrame_cap (s : State) : (showFrame s).cap = s.cap := rfl
@[simp] theorem showFrame_disp (s : State) : (showFrame s).disp = s.pix := rfl
@[simp] theorem showFrame_shows (s : State) : (showFrame s).shows = s.shows ++ [s.pix] := rfl
@[simp] theorem showFrame_rgb (s : State) : (showFrame s).rgb = s.rgb := rfl
@[simp] theorem showFrame_clk (s : State) : (showFrame s).clk = s.clk := rfl
@[simp] theorem showFrame_rx (s : State) : (showFrame s).rx = s.rx := rfl
@[simp] theorem showFrame_draws (s : State) : (showFrame s).draws = s.draws := rfl

/-! ## latchTime -/

@[simp] theorem latchTime_cfg (s : State) : (latchTime s).cfg = s.cfg := rfl
@[simp] theorem latchTime_pal (s : State) : (latchTime s).pal = s.pal := rfl
@[simp] theorem latchTime_mode (s : State) : (latchTime s).mode = s.mode := rfl
@[simp] theorem latchTime_spd (s : State) : (latchTime s).spd = s.spd := rfl
@[simp] theorem latchTime_pwr (s : State) : (latchTime s).pwr = s.pwr := rfl
@[simp] theorem latchTime_seq (s : State) : (latchTime s).seq = s.seq := rfl
@[simp] theorem latchTime_t (s : State) : (latchTime s).t = s.t + ticksDue s := rfl
@[simp] theorem latchTime_tf (s : State) : (latchTime s).tf = s.t + ticksDue s := rfl
@[simp] theorem latchTime_cmdv (s : State) : (latchTime s).cmdv = s.cmdv := rfl
@[simp] theorem latchTime_cmd (s : State) : (latchTime s).cmd = s.cmd := rfl
@[simp] theorem latchTime_pix (s : State) : (latchTime s).pix = s.pix := rfl
@[simp] theorem latchTime_cap (s : State) : (latchTime s).cap = s.cap := rfl
@[simp] theorem latchTime_disp (s : State) : (latchTime s).disp = s.disp := rfl
@[simp] theorem latchTime_shows (s : State) : (latchTime s).shows = s.shows := rfl
@[simp] theorem latchTime_rgb (s : State) : (latchTime s).rgb = s.rgb := rfl
@[simp] theorem latchTime_clk (s : State) : (latchTime s).clk = s.clk.tail := rfl
@[simp] theorem latchTime_rx (s : State) : (latchTime s).rx = s.rx := rfl
@[simp] theorem latchTime_draws (s : State) : (latchTime s).draws = if s.clk.isEmpty then s.draws + 1 else s.draws := rfl

/-! ## afterCapture -/

@[simp] theorem afterCapture_cfg (s : State) : (afterCapture s).cfg = s.cfg := rfl
@[simp] theorem afterCapture_pal (s : State) : (afterCapture s).pal = s.pal := rfl
@[simp] theorem afterCapture_mode (s : State) : (afterCapture s).mode = s.mode := rfl
@[simp] theorem afterCapture_spd (s : State) : (afterCapture s).spd = s.spd := rfl
@[simp] theorem afterCapture_pwr (s : State) : (afterCapture s).pwr = s.pwr := rfl
@[simp] theorem afterCapture_seq (s : State) : (afterCapture s).seq = s.seq := rfl
@[simp] theorem afterCapture_t (s : State) : (afterCapture s).t = s.t := rfl
@[simp] theorem afterCapture_tf (s : State) : (afterCapture s).tf = s.tf := rfl
@[simp] theorem afterCapture_cmdv (s : State) : (afterCapture s).cmdv = s.cmdv := rfl
@[simp] theorem afterCapture_cmd (s : State) : (afterCapture s).cmd = s.cmd := rfl
@[simp] theorem afterCapture_pix (s : State) : (afterCapture s).pix = s.pix := rfl
@[simp] theorem afterCapture_cap (s : State) : (afterCapture s).cap = [] := rfl
@[simp] theorem afterCapture_disp (s : State) : (afterCapture s).disp = s.disp := rfl
@[simp] theorem afterCapture_shows (s : State) : (afterCapture s).shows = s.shows := rfl
@[simp] theorem afterCapture_rgb (s : State) : (afterCapture s).rgb = s.rgb := rfl
@[simp] theorem afterCapture_clk (s : State) : (afterCapture s).clk = s.clk := rfl
@[simp] theorem afterCapture_rx (s : State) : (afterCapture s).rx = s.rx.tail := rfl
@[simp] theorem afterCapture_draws (s : State) : (afterCapture s).draws = if s.rx.isEmpty then s.draws + 1 else s.draws := rfl

/-! ## latchCommand -/

@[simp] theorem latchCommand_cfg (c : Byte) (s : State) : (latchCommand c s).cfg = s.cfg := rfl
@[simp] theorem latchCommand_pal (c : Byte) (s : State) : (latchCommand c s).pal = s.pal := rfl
@[simp] theorem latchCommand_mode (c : Byte) (s : State) : (latchCommand c s).mode = s.mode := rfl
@[simp] theorem latchCommand_spd (c : Byte) (s : State) : (latchCommand c s).spd = s.spd := rfl
@[simp] theorem latchCommand_pwr (c : Byte) (s : State) : (latchCommand c s).pwr = s.pwr := rfl
@[simp] theorem latchCommand_seq (c : Byte) (s : State) : (latchCommand c s).seq = s.seq := rfl
@[simp] theorem latchCommand_t (c : Byte) (s : State) : (latchCommand c s).t = s.t := rfl
@[simp] theorem latchCommand_tf (c : Byte) (s : State) : (latchCommand c s).tf = s.tf := rfl
@[simp] theorem latchCommand_cmdv (c : Byte) (s : State) : (latchCommand c s).cmdv = true := rfl
@[simp] theorem latchCommand_cmd (c : Byte) (s : State) : (latchCommand c s).cmd = c := rfl
@[simp] theorem latchCommand_pix (c : Byte) (s : State) : (latchCommand c s).pix = s.pix := rfl
@[simp] theorem latchCommand_cap (c : Byte) (s : State) : (latchCommand c s).cap = s.cap := rfl
@[simp] theorem latchCommand_disp (c : Byte) (s : State) : (latchCommand c s).disp = s.disp := rfl
@[simp] theorem latchCommand_shows (c : Byte) (s : State) : (latchCommand c s).shows = s.shows := rfl
@[simp] theorem latchCommand_rgb (c : Byte) (s : State) : (latchCommand c s).rgb = s.rgb := rfl
@[simp] theorem latchCommand_clk (c : Byte) (s : State) : (latchCommand c s).clk = s.clk := rfl
@[simp] theorem latchCommand_rx (c : Byte) (s : State) : (latchCommand c s).rx = s.rx := rfl
@[simp] theorem latchCommand_draws (c : Byte) (s : State) : (latchCommand c s).draws = s.draws := rfl

/-! ## clearCommand -/

@[simp] theorem clearCommand_cfg (s : State) : (clearCommand s).cfg = s.cfg := rfl
@[simp] theorem clearCommand_pal (s : State) : (clearCommand s).pal = s.pal := rfl
@[simp] theorem clearCommand_mode (s : State) : (clearCommand s).mode = s.mode := rfl
@[simp] theorem clearCommand_spd (s : State) : (clearCommand s).spd = s.spd := rfl
@[simp] theorem clearCommand_pwr (s : State) : (clearCommand s).pwr = s.pwr := rfl
@[simp] theorem clearCommand_seq (s : State) : (clearCommand s).seq = s.seq := rfl
@[simp] theorem clearCommand_t (s : State) : (clearCommand s).t = s.t := rfl
@[simp] theorem clearCommand_tf (s : State) : (clearCommand s).tf = s.tf := rfl
@[simp] theorem clearCommand_cmdv (s : State) : (clearCommand s).cmdv = false := rfl
@[simp] theorem clearCommand_cmd (s : State) : (clearCommand s).cmd = s.cmd := rfl
@[simp] theorem clearCommand_pix (s : State) : (clearCommand s).pix = s.pix := rfl
@[simp] theorem clearCommand_cap (s : State) : (clearCommand s).cap = s.cap := rfl
@[simp] theorem clearCommand_disp (s : State) : (clearCommand s).disp = s.disp := rfl
@[simp] theorem clearCommand_shows (s : State) : (clearCommand s).shows = s.shows := rfl
@[simp] theorem clearCommand_rgb (s : State) : (clearCommand s).rgb = s.rgb := rfl
@[simp] theorem clearCommand_clk (s : State) : (clearCommand s).clk = s.clk := rfl
@[simp] theorem clearCommand_rx (s : State) : (clearCommand s).rx = s.rx := rfl
@[simp] theorem clearCommand_draws (s : State) : (clearCommand s).draws = s.draws := rfl

/-! ## softFailure -/

@[simp] theorem softFailure_cfg (s : State) : (softFailure s).cfg = s.cfg := rfl
@[simp] theorem softFailure_pal (s : State) : (softFailure s).pal = s.pal := rfl
@[simp] theorem softFailure_mode (s : State) : (softFailure s).mode = s.mode := rfl
@[simp] theorem softFailure_spd (s : State) : (softFailure s).spd = s.spd := rfl
@[simp] theorem softFailure_pwr (s : State) : (softFailure s).pwr = s.pwr := rfl
@[simp] theorem softFailure_seq (s : State) : (softFailure s).seq = .apply := rfl
@[simp] theorem softFailure_t (s : State) : (softFailure s).t = s.t := rfl
@[simp] theorem softFailure_tf (s : State) : (softFailure s).tf = s.tf := rfl
@[simp] theorem softFailure_cmdv (s : State) : (softFailure s).cmdv = false := rfl
@[simp] theorem softFailure_cmd (s : State) : (softFailure s).cmd = s.cmd := rfl
@[simp] theorem softFailure_pix (s : State) : (softFailure s).pix = s.pix := rfl
@[simp] theorem softFailure_cap (s : State) : (softFailure s).cap = s.cap := rfl
@[simp] theorem softFailure_disp (s : State) : (softFailure s).disp = s.disp := rfl
@[simp] theorem softFailure_shows (s : State) : (softFailure s).shows = s.shows := rfl
@[simp] theorem softFailure_rgb (s : State) : (softFailure s).rgb = s.rgb := rfl
@[simp] theorem softFailure_clk (s : State) : (softFailure s).clk = s.clk := rfl
@[simp] theorem softFailure_rx (s : State) : (softFailure s).rx = s.rx := rfl
@[simp] theorem softFailure_draws (s : State) : (softFailure s).draws = s.draws := rfl

/-! ## takeCommand -/

@[simp] theorem takeCommand_cfg (c : Byte) (s : State) : (takeCommand c s).cfg = s.cfg := rfl
@[simp] theorem takeCommand_pal (c : Byte) (s : State) : (takeCommand c s).pal = s.pal := rfl
@[simp] theorem takeCommand_mode (c : Byte) (s : State) : (takeCommand c s).mode = s.mode := rfl
@[simp] theorem takeCommand_spd (c : Byte) (s : State) : (takeCommand c s).spd = s.spd := rfl
@[simp] theorem takeCommand_pwr (c : Byte) (s : State) : (takeCommand c s).pwr = s.pwr := rfl
@[simp] theorem takeCommand_seq (c : Byte) (s : State) : (takeCommand c s).seq = .apply := rfl
@[simp] theorem takeCommand_t (c : Byte) (s : State) : (takeCommand c s).t = s.t := rfl
@[simp] theorem takeCommand_tf (c : Byte) (s : State) : (takeCommand c s).tf = s.tf := rfl
@[simp] theorem takeCommand_cmdv (c : Byte) (s : State) : (takeCommand c s).cmdv = true := rfl
@[simp] theorem takeCommand_cmd (c : Byte) (s : State) : (takeCommand c s).cmd = c := rfl
@[simp] theorem takeCommand_pix (c : Byte) (s : State) : (takeCommand c s).pix = s.pix := rfl
@[simp] theorem takeCommand_cap (c : Byte) (s : State) : (takeCommand c s).cap = s.cap := rfl
@[simp] theorem takeCommand_disp (c : Byte) (s : State) : (takeCommand c s).disp = s.disp := rfl
@[simp] theorem takeCommand_shows (c : Byte) (s : State) : (takeCommand c s).shows = s.shows := rfl
@[simp] theorem takeCommand_rgb (c : Byte) (s : State) : (takeCommand c s).rgb = s.rgb := rfl
@[simp] theorem takeCommand_clk (c : Byte) (s : State) : (takeCommand c s).clk = s.clk := rfl
@[simp] theorem takeCommand_rx (c : Byte) (s : State) : (takeCommand c s).rx = s.rx := rfl
@[simp] theorem takeCommand_draws (c : Byte) (s : State) : (takeCommand c s).draws = s.draws := rfl

end Sys2Proof.Machine
end

