-- ==== Sys2Proof/Laws/Ops.lean ====
section
/-! SUPPORT. One lemma per shared operation that says everything it can do; provers cite these instead of unfolding. -/

namespace Sys2Proof.Machine

/-! ## Sequencing and the configuration gate -/

@[simp] theorem andThen_next {α β : Type} (a : α) (k : α → Result β) : andThen (.next a) k = k a := rfl

theorem andThen_eq_next {α β : Type} {o : Result α} {k : α → Result β} {b : β} :
    andThen o k = .next b ↔ ∃ a, o = .next a ∧ k a = .next b := by
  cases o <;> simp [andThen]

theorem whenConfigured_of {s : State} {o : Result State} (h : s.cfg.WF) : whenConfigured s o = o := if_pos h

theorem whenConfigured_of_not {s : State} {o : Result State} (h : ¬ s.cfg.WF) :
    whenConfigured s o = .refused .illFormedConfiguration := if_neg h

theorem whenConfigured_eq_next {s t : State} {o : Result State} :
    whenConfigured s o = .next t ↔ s.cfg.WF ∧ o = .next t := by
  by_cases h : s.cfg.WF
  · rw [whenConfigured_of h]; exact ⟨fun e => ⟨h, e⟩, fun e => e.2⟩
  · rw [whenConfigured_of_not h]; exact ⟨fun e => (by cases e), fun e => absurd e.1 h⟩

/-! ## The pixel store -/

theorem pixWrite_eq_next {i : Nat} {v : Pixel} {s t : State} :
    pixWrite i v s = .next t ↔ i < s.pix.length ∧ t = setPix (s.pix.set i v) s := by
  unfold pixWrite
  split <;> simp_all [eq_comm]

/-- Every write keeps the form of the pixel memory. -/
theorem pixWrite_keeps_wf {i : Nat} {v : Pixel} {s t : State} {c : Config} (h : pixWrite i v s = .next t)
    (hw : Memory.wf c s.pix) : Memory.wf c t.pix := by
  obtain ⟨-, rfl⟩ := pixWrite_eq_next.1 h
  simpa [Memory.wf] using hw

theorem reset_memory_wf (c : Config) : Memory.wf c (State.resetWith c).pix := by simp [Memory.wf, State.resetWith]

/-- A write gives the written pixel its word. -/
theorem pixRead_pixWrite_same {i : Nat} {v : Pixel} {s t : State} (h : pixWrite i v s = .next t) :
    pixRead t i = some v := by
  obtain ⟨hi, rfl⟩ := pixWrite_eq_next.1 h
  simp [pixRead, hi]

/-- A write leaves every other pixel. -/
theorem pixRead_pixWrite_other {i k : Nat} {v : Pixel} {s t : State} (h : pixWrite i v s = .next t) (hk : i ≠ k) :
    pixRead t k = pixRead s k := by
  obtain ⟨-, rfl⟩ := pixWrite_eq_next.1 h
  simp [pixRead, List.getElem?_set_ne hk]

/-- What a loop of pixel writes does: `PIX` alone changes, keeps its length, and holds `f k` at the listed indices. -/
structure PixelsWritten (is : List Nat) (f : Nat → Option Pixel) (s t : State) : Prop where
  only_pix : t = setPix t.pix s
  length : t.pix.length = s.pix.length
  inside : ∀ k ∈ is, k < s.pix.length
  read : ∀ k, pixRead t k = if k ∈ is then f k else pixRead s k

/-- The frame of a loop of pixel writes: every field but `PIX`. -/
theorem PixelsWritten.frame {is : List Nat} {f : Nat → Option Pixel} {s u : State} (h : PixelsWritten is f s u) :
    u.cfg = s.cfg ∧ u.pal = s.pal ∧ u.mode = s.mode ∧ u.spd = s.spd ∧ u.pwr = s.pwr ∧ u.seq = s.seq ∧ u.t = s.t ∧
    u.tf = s.tf ∧ u.cmdv = s.cmdv ∧ u.cmd = s.cmd ∧ u.cap = s.cap ∧ u.disp = s.disp ∧ u.shows = s.shows ∧
    u.rgb = s.rgb ∧ u.clk = s.clk ∧ u.rx = s.rx ∧ u.draws = s.draws := by
  have h1 := h.only_pix
  refine ⟨?_, ?_, ?_, ?_, ?_, ?_, ?_, ?_, ?_, ?_, ?_, ?_, ?_, ?_, ?_, ?_, ?_⟩ <;> rw [h1] <;> simp

/-- A loop over every pixel leaves exactly the list of the written words. -/
theorem PixelsWritten.pix_eq_map {c : Config} {f : Nat → Option Pixel} {s u : State}
    (h : PixelsWritten (List.range c.pixelCount) f s u) (hn : Memory.wf c s.pix) :
    u.pix = (List.range c.pixelCount).map fun i => (f i).getD blankPixel := by
  apply List.ext_getElem?
  intro k
  have hr := h.read k
  simp only [pixRead, List.mem_range] at hr
  rw [hr]
  split
  · next hk =>
    have hk' : k < u.pix.length := by rw [h.length, hn]; exact hk
    have : f k = some u.pix[k] := by
      rw [if_pos hk] at hr; rw [← hr]; exact List.getElem?_eq_getElem hk'
    simp [this, hk]
  · next hk =>
    have : s.pix.length = c.pixelCount := hn
    rw [List.getElem?_eq_none (by omega), List.getElem?_eq_none (by simp; omega)]

/-- OFF's loop (R114). -/
theorem blankPixels_next {is : List Nat} {s t : State} (h : blankPixels is s = .next t) :
    PixelsWritten is (fun _ => some blankPixel) s t := by
  induction is generalizing s with
  | nil => cases h; exact ⟨rfl, rfl, by simp, by simp⟩
  | cons i is ih =>
    obtain ⟨u, hu, ht⟩ := andThen_eq_next.1 h
    obtain ⟨hp, hl, hin, hr⟩ := ih ht
    have hother := fun k hk => pixRead_pixWrite_other (k := k) hu hk
    have hsame := pixRead_pixWrite_same hu
    obtain ⟨hi, rfl⟩ := pixWrite_eq_next.1 hu
    refine ⟨hp, by simpa using hl, ?_, ?_⟩
    · intro k hk
      rcases List.mem_cons.1 hk with rfl | hk
      · exact hi
      · simpa using hin k hk
    · intro k
      rw [hr k]
      by_cases hk : k ∈ is
      · simp [hk]
      · by_cases hki : k = i
        · subst hki; simpa [hk] using hsame
        · simpa [hk, hki] using hother k (Ne.symm hki)

theorem blankPixels_completes {is : List Nat} {s : State} (h : ∀ k ∈ is, k < s.pix.length) :
    ∃ t, blankPixels is s = .next t := by
  induction is generalizing s with
  | nil => exact ⟨s, rfl⟩
  | cons i is ih =>
    have hi : i < s.pix.length := h i (by simp)
    obtain ⟨t, ht⟩ := ih (s := setPix (s.pix.set i blankPixel) s) (by intro k hk; simpa using h k (by simp [hk]))
    exact ⟨t, andThen_eq_next.2 ⟨_, pixWrite_eq_next.2 ⟨hi, rfl⟩, ht⟩⟩

/-! ## The renderer -/

theorem renderWord_on (c : Config) (pal : Nat) (mode : Mode) (spd : Fin speedTierCount) (tf i : Nat) :
    renderWord c pal mode spd true tf i = palRead c pal (stepAt c mode spd tf i) := rfl

/-- The phase is unchanged by whole periods (R129). -/
theorem phaseTicks_add_periods (N : Int) (I : Nat) (k : Int) : phaseTicks (N + k * (14 * I)) I = phaseTicks N I := by
  unfold phaseTicks
  have : ((periodUnits * I : Nat) : Int) = 14 * I := by norm_num [periodUnits]
  rw [this, Int.add_mul_emod_self_right]

/-- RENDER depends on mode, time and pixel through the offset time alone, modulo whole periods (R128, R129). -/
theorem renderWord_congr {c : Config} {m m' : Mode} {spd : Fin speedTierCount} {tf i tf' i' : Nat} (k : Int)
    (h : offsetTime tf' (pixelOffset m' i') c.speedTicks[spd] =
      offsetTime tf (pixelOffset m i) c.speedTicks[spd] + k * (14 * c.speedTicks[spd])) (pal : Nat) (pwr : Bool) :
    renderWord c pal m spd pwr tf i = renderWord c pal m' spd pwr tf' i' := by
  have : stepAt c m' spd tf' i' = stepAt c m spd tf i := by
    unfold stepAt spdRead
    simp only [phaseUnit, phaseRest, h, phaseTicks_add_periods]
  unfold renderWord
  rw [this]

/-- PalRead delivers a word of its row exactly when the palette exists (R52). -/
theorem palRead_eq_some {c : Config} {p : Nat} {st : Fin stepCount} {v : Pixel} :
    palRead c p st = some v ↔ ∃ row, c.palrom[p]? = some row ∧ row[st] = v := by
  simp [palRead]

theorem renderWord_isSome {c : Config} (hc : c.WF) {pal : Nat} (hp : pal < c.paletteCount) (mode : Mode)
    (spd : Fin speedTierCount) (pwr : Bool) (tf i : Nat) : ∃ v, renderWord c pal mode spd pwr tf i = some v := by
  have hp' : pal < c.palrom.length := by rw [wf_palrom_length hc]; exact hp
  cases pwr
  · exact ⟨_, rfl⟩
  · exact ⟨_, palRead_eq_some.2 ⟨_, List.getElem?_eq_getElem hp', rfl⟩⟩

theorem renderPixel_eq_next {s : State} {i : Nat} {v : Pixel} :
    renderPixel s i = .next v ↔ renderWord s.cfg s.pal s.mode s.spd s.pwr s.tf i = some v := by
  unfold renderPixel
  split <;> simp_all

/-- RENDER_ALL's loop (R146). -/
theorem renderPixels_next {is : List Nat} {s t : State} (h : renderPixels is s = .next t) :
    PixelsWritten is (renderWord s.cfg s.pal s.mode s.spd s.pwr s.tf) s t := by
  induction is generalizing s with
  | nil => cases h; exact ⟨rfl, rfl, by simp, by simp⟩
  | cons i is ih =>
    obtain ⟨v, hv, h2⟩ := andThen_eq_next.1 h
    obtain ⟨u, hu, ht⟩ := andThen_eq_next.1 h2
    have hother := fun k hk => pixRead_pixWrite_other (k := k) hu hk
    have hsame := pixRead_pixWrite_same hu
    have hv' := renderPixel_eq_next.1 hv
    obtain ⟨hi, rfl⟩ := pixWrite_eq_next.1 hu
    obtain ⟨hp, hl, hin, hr⟩ := ih ht
    refine ⟨hp, by simpa using hl, ?_, ?_⟩
    · intro k hk
      rcases List.mem_cons.1 hk with rfl | hk
      · exact hi
      · simpa using hin k hk
    · intro k
      rw [hr k]
      by_cases hk : k ∈ is
      · simp [hk]
      · by_cases hki : k = i
        · subst hki; simpa [hk, hv'] using hsame
        · simpa [hk, hki] using hother k (Ne.symm hki)

theorem renderPixels_completes {is : List Nat} {s : State} (hc : s.cfg.WF) (hp : s.pal < s.cfg.paletteCount)
    (h : ∀ k ∈ is, k < s.pix.length) : ∃ t, renderPixels is s = .next t := by
  induction is generalizing s with
  | nil => exact ⟨s, rfl⟩
  | cons i is ih =>
    have hi : i < s.pix.length := h i (by simp)
    obtain ⟨v, hv⟩ := renderWord_isSome hc hp s.mode s.spd s.pwr s.tf i
    obtain ⟨t, ht⟩ := ih (s := setPix (s.pix.set i v) s) hc hp (by intro k hk; simpa using h k (by simp [hk]))
    exact ⟨t, andThen_eq_next.2 ⟨v, renderPixel_eq_next.2 hv, andThen_eq_next.2 ⟨_, pixWrite_eq_next.2 ⟨hi, rfl⟩, ht⟩⟩⟩

/-! ## Time and capture -/

/-- With a script, the ticks due are its first entry (R8). -/
theorem ticksDue_cons {s : State} {d : Nat} {ds : List Nat} (h : s.clk = d :: ds) : ticksDue s = d := by
  simp [ticksDue, h]

theorem arrivals_cons {s : State} {p : Train} {r : List Train} (h : s.rx = p :: r) : arrivals s = p := by
  simp [arrivals, h]

/-- CapRead() returns at most `CAPTURE_MAX` durations (R51). -/
theorem captured_length_le (s : State) : (captured s).length ≤ s.cfg.captureMax := by
  simp [captured]

/-- POLL's decode half is the soft failure or the latching of the command (R148). -/
theorem latchDecoded_cases (r : Option Byte) (s : State) :
    (r = none ∧ latchDecoded r s = softFailure s) ∨ ∃ c, r = some c ∧ latchDecoded r s = takeCommand c s := by
  cases r <;> simp [latchDecoded]

end Sys2Proof.Machine
end

