-- ==== Sys2Proof/Laws/Exec.lean ====
section
/-! SUPPORT. Inversion lemmas: what a meaning has done when it answers a next state, one lemma per meaning that is more
than one register update, and what role APPLYCMD selects. -/

namespace Sys2Proof.Machine

/-- Six answers of a role: everything APPLYCMD can do, by the role its byte selects (R110). -/
theorem applyCommand_cases {c : Byte} {s t : State} (h : applyCommand c s = .next t) :
    (roleOf s.cfg c = .color ∧ t = setPal ((s.pal + 1) % s.cfg.paletteCount) s) ∨
    (roleOf s.cfg c = .anim ∧ ∃ m, m ≠ s.mode ∧ t = setMode m s) ∨
    (roleOf s.cfg c = .speed ∧ ∃ k : Fin speedTierCount, k.val = (s.spd.val + 1) % 5 ∧ t = setSpd k s) ∨
    (roleOf s.cfg c = .off ∧ ∃ u, PixelsWritten (List.range s.cfg.pixelCount) (fun _ => some blankPixel)
      (setPwr false s) u ∧ t = showFrame u) ∨
    (roleOf s.cfg c = .on ∧ t = setPwr true s) ∨
    (roleOf s.cfg c = .nop ∧ t = s) := by
  unfold applyCommand at h
  cases hd : roleOf s.cfg c <;> rw [hd] at h
  case color => cases h; exact .inl ⟨rfl, rfl⟩
  case anim =>
    cases h
    refine .inr (.inl ⟨rfl, _, ?_, rfl⟩)
    cases s.mode <;> simp
  case speed =>
    cases h
    refine .inr (.inr (.inl ⟨rfl, _, ?_, rfl⟩))
    revert s; intro s _; generalize s.spd = k; revert k; decide
  case off =>
    obtain ⟨u, hu, ht⟩ := andThen_eq_next.1 h
    cases ht
    exact .inr (.inr (.inr (.inl ⟨rfl, u, blankPixels_next hu, rfl⟩)))
  case on => cases h; exact .inr (.inr (.inr (.inr (.inl ⟨rfl, rfl⟩))))
  case nop => cases h; exact .inr (.inr (.inr (.inr (.inr ⟨rfl, rfl⟩))))

/-- APPLYCMD always completes on a pixel buffer of the right size. -/
theorem applyCommand_completes (c : Byte) {s : State} (h : Memory.wf s.cfg s.pix) :
    ∃ t, applyCommand c s = .next t := by
  unfold applyCommand
  cases roleOf s.cfg c
  case off =>
    obtain ⟨u, hu⟩ := blankPixels_completes (is := List.range s.cfg.pixelCount) (s := setPwr false s)
      (by intro k hk; simpa [← h] using hk)
    exact ⟨_, andThen_eq_next.2 ⟨u, hu, rfl⟩⟩
  all_goals exact ⟨_, rfl⟩

/-- A meaning of one command role is APPLYCMD's arm of that role (R110). -/
theorem exec_decodeCommand (c : Byte) (s : State) :
    exec (decodeCommand s.cfg c) s = whenConfigured s (applyCommand c s) := by
  unfold decodeCommand applyCommand
  cases roleOf s.cfg c <;> rfl

theorem execOff_next {s t : State} (h : execOff s = .next t) :
    s.cfg.WF ∧ ∃ u, PixelsWritten (List.range s.cfg.pixelCount) (fun _ => some blankPixel) (setPwr false s) u ∧
      t = showFrame u := by
  obtain ⟨hc, h⟩ := whenConfigured_eq_next.1 h
  obtain ⟨u, hu, ht⟩ := andThen_eq_next.1 h
  cases ht
  exact ⟨hc, u, blankPixels_next hu, rfl⟩

theorem execRenderAll_next {s t : State} (h : execRenderAll s = .next t) :
    s.cfg.WF ∧ ∃ u, PixelsWritten (List.range s.cfg.pixelCount)
      (renderWord s.cfg s.pal s.mode s.spd s.pwr (s.t + ticksDue s)) (latchTime s) u ∧ t = setSeq .poll u := by
  obtain ⟨hc, h⟩ := whenConfigured_eq_next.1 h
  obtain ⟨u, hu, ht⟩ := andThen_eq_next.1 h
  cases ht
  exact ⟨hc, u, renderPixels_next hu, rfl⟩

theorem execPoll_next {s t : State} (h : execPoll s = .next t) :
    s.cfg.WF ∧ t = latchDecoded (decode s.cfg (captured s)) (afterCapture s) := by
  obtain ⟨hc, h⟩ := whenConfigured_eq_next.1 h
  cases h
  exact ⟨hc, rfl⟩

theorem execApply_next {s t : State} (h : execApply s = .next t) :
    s.cfg.WF ∧ ∃ u, ((s.cmdv = false ∧ u = s) ∨ (s.cmdv = true ∧ applyCommand s.cmd s = .next u)) ∧
      t = setSeq .flush (clearCommand u) := by
  obtain ⟨hc, h⟩ := whenConfigured_eq_next.1 h
  obtain ⟨u, hu, ht⟩ := andThen_eq_next.1 h
  cases ht
  refine ⟨hc, u, ?_, rfl⟩
  cases hv : s.cmdv <;> simp [hv] at hu
  · exact .inl ⟨rfl, hu.symm⟩
  · exact .inr ⟨rfl, hu⟩

theorem execFlush_next {s t : State} (h : execFlush s = .next t) :
    s.cfg.WF ∧ t = setSeq .renderAll (showFrame s) := by
  obtain ⟨hc, h⟩ := whenConfigured_eq_next.1 h
  cases h
  exact ⟨hc, rfl⟩

theorem execRender_next {i : Nat} {s t : State} (h : execRender i s = .next t) :
    s.cfg.WF ∧ ∃ v, renderWord s.cfg s.pal s.mode s.spd s.pwr s.tf i = some v ∧ t = setRgb v s := by
  obtain ⟨hc, h⟩ := whenConfigured_eq_next.1 h
  obtain ⟨v, hv, ht⟩ := andThen_eq_next.1 h
  cases ht
  exact ⟨hc, v, renderPixel_eq_next.1 hv, rfl⟩

/-- The operation a step runs, by `SEQ` (R84). -/
theorem step_eq (s : State) : step s = exec s.seq.instr s := by
  show exec (fetch s) s = _
  cases hs : s.seq <;> simp [fetch, decodeCode, hs, SeqOp.toBits, SeqOp.ofBits]

/-- The byte that selects a bound role is that role's code (R78). -/
theorem roleOf_color {c : Config} {b : Byte} (h : roleOf c b = .color) : b = c.codeColor := by
  unfold roleOf at h; split_ifs at h; assumption

theorem roleOf_anim {c : Config} {b : Byte} (h : roleOf c b = .anim) : b = c.codeAnim := by
  unfold roleOf at h; split_ifs at h; assumption

theorem roleOf_speed {c : Config} {b : Byte} (h : roleOf c b = .speed) : b = c.codeSpeed := by
  unfold roleOf at h; split_ifs at h; assumption

theorem roleOf_off {c : Config} {b : Byte} (h : roleOf c b = .off) : b = c.codeOff := by
  unfold roleOf at h; split_ifs at h; assumption

theorem roleOf_on {c : Config} {b : Byte} (h : roleOf c b = .on) : b = c.codeOn := by
  unfold roleOf at h; split_ifs at h; assumption

theorem roleOf_nop {c : Config} {b : Byte} (h : roleOf c b = .nop) : b ∉ c.codes := by
  unfold roleOf at h
  split_ifs at h
  simp_all [Config.codes]

/-- A bound code selects its own role and no other byte does (R78, R110): the codes are pairwise distinct. -/
theorem roleOf_iff {c : Config} (hc : c.WF) (b : Byte) :
    (b = c.codeColor ↔ roleOf c b = .color) ∧ (b = c.codeAnim ↔ roleOf c b = .anim) ∧
    (b = c.codeSpeed ↔ roleOf c b = .speed) ∧ (b = c.codeOff ↔ roleOf c b = .off) ∧
    (b = c.codeOn ↔ roleOf c b = .on) := by
  have hn := wf_codes_nodup hc
  simp only [Config.codes, List.nodup_cons, List.mem_cons, List.not_mem_nil, or_false, not_or] at hn
  refine ⟨⟨?_, roleOf_color⟩, ⟨?_, roleOf_anim⟩, ⟨?_, roleOf_speed⟩, ⟨?_, roleOf_off⟩, ⟨?_, roleOf_on⟩⟩ <;>
    rintro rfl <;> simp only [roleOf]
  · simp
  · simp [Ne.symm hn.1.1]
  · simp [Ne.symm hn.1.2.1, Ne.symm hn.2.1.1]
  · simp [Ne.symm hn.1.2.2.1, Ne.symm hn.2.1.2.1, Ne.symm hn.2.2.1.1]
  · simp [Ne.symm hn.1.2.2.2, Ne.symm hn.2.1.2.2, Ne.symm hn.2.2.1.2, Ne.symm hn.2.2.2.1]

end Sys2Proof.Machine
end

