-- ==== Sys2Proof/Laws/PerInstr.lean ====
section
/-! SUPPORT. The family CodedForm: which coded form each instruction's code has (the "format" column of
spec/opcode_table.json). -/

namespace Sys2Proof.Laws

/-- The formats of the opcode table: CMD8; NEC32, NECRPT and PULSETRAIN; SEQ2; INTERNAL is none. -/
inductive Format where
  | commandByte
  | pulseTrain
  | sequencerWord
deriving DecidableEq, Repr

/-- The format of a code. -/
def codeFormat : Code → Format
  | .seq2 _ => .sequencerWord
  | .cmd8 _ => .commandByte
  | .train _ => .pulseTrain

/-- The format the opcode table gives an instruction; none for RENDER. -/
def instrFormat : Instr → Option Format
  | .color => some .commandByte
  | .anim => some .commandByte
  | .speed => some .commandByte
  | .off => some .commandByte
  | .on => some .commandByte
  | .nop _ => some .commandByte
  | .frame _ _ _ _ => some .pulseTrain
  | .repeatCode _ => some .pulseTrain
  | .illegalTrain _ => some .pulseTrain
  | .renderAll => some .sequencerWord
  | .poll => some .sequencerWord
  | .apply => some .sequencerWord
  | .flush => some .sequencerWord
  | .render _ => none

/-- The encoder gives the instruction a code of its row's format, and RENDER none. -/
def CodedForm.Statement (i : Instr) : Prop := ∀ c : Config, (encode c i).map codeFormat = instrFormat i

theorem CodedForm.color : CodedForm.Statement .color := fun _ => rfl
theorem CodedForm.anim : CodedForm.Statement .anim := fun _ => rfl
theorem CodedForm.speed : CodedForm.Statement .speed := fun _ => rfl
theorem CodedForm.off : CodedForm.Statement .off := fun _ => rfl
theorem CodedForm.on : CodedForm.Statement .on := fun _ => rfl
theorem CodedForm.nop (c : Byte) : CodedForm.Statement (.nop c) := fun _ => rfl
theorem CodedForm.frame (b0 b1 b2 b3 : Byte) : CodedForm.Statement (.frame b0 b1 b2 b3) := fun _ => rfl
theorem CodedForm.repeatCode (p : Train) : CodedForm.Statement (.repeatCode p) := fun _ => rfl
theorem CodedForm.illegalTrain (p : Train) : CodedForm.Statement (.illegalTrain p) := fun _ => rfl
theorem CodedForm.renderAll : CodedForm.Statement .renderAll := fun _ => rfl
theorem CodedForm.poll : CodedForm.Statement .poll := fun _ => rfl
theorem CodedForm.apply : CodedForm.Statement .apply := fun _ => rfl
theorem CodedForm.flush : CodedForm.Statement .flush := fun _ => rfl
theorem CodedForm.render (i : Nat) : CodedForm.Statement (.render i) := fun _ => rfl

end Sys2Proof.Laws
end

