-- ==== Sys2Proof/Laws/Safety.lean ====
section
/-! SUPPORT. The small lemmas of the terms in Safety.lean, and a run cut into its first step and the rest. -/

namespace Sys2Proof.Safety

open Sys2Proof.Machine

theorem blankFrame_wf (c : Config) : Memory.wf c (blankFrame c) := by simp [Memory.wf, blankFrame]

theorem frameOf_wf (s : State) (tf : Nat) : Memory.wf s.cfg (frameOf s tf) := by simp [Memory.wf, frameOf]

/-- The frame of an off state is blank (R133). -/
theorem frameOf_off {s : State} (h : s.pwr = false) (tf : Nat) : frameOf s tf = blankFrame s.cfg := by
  unfold frameOf renderWord
  rw [h]
  simp [blankFrame]

/-- The frame depends on the configuration and the animation state alone (R134). -/
theorem frameOf_congr {s t : State} (h : t.cfg = s.cfg ∧ t.pal = s.pal ∧ t.mode = s.mode ∧ t.spd = s.spd ∧ t.pwr = s.pwr)
    (tf : Nat) : frameOf t tf = frameOf s tf := by
  obtain ⟨h1, h2, h3, h4, h5⟩ := h
  unfold frameOf
  rw [h1, h2, h3, h4, h5]

/-- A run begins with a step. -/
theorem run_succ {s t : State} {n : Nat} (h : step s = .next t) :
    Host.Core.run Sys2Proof.core (n + 1) s = Host.Core.run Sys2Proof.core n t := by
  have h' : Sys2Proof.core.step s = .next t := h
  simp [Host.Core.run, h']

end Sys2Proof.Safety
end

