-- ==== Sys2Proof/Machine/Script.lean ====
section
/-! DEFINITION. Event scripts (R85, R86): the notation in which an input to the block is written, and how one is laid
before it (log 13, log 25, log 26). -/

namespace Sys2Proof.Machine

/-- The forms of `<what>` in `AT <T> RX <what>` (R85). -/
inductive RxForm where
  /-- `NONE`: the empty train. -/
  | noPulses
  /-- `KEY 0xCC`. -/
  | key (b : Byte)
  /-- `COLOR`. -/
  | color
  /-- `ANIM`. -/
  | anim
  /-- `SPEED`. -/
  | speed
  /-- `OFF`. -/
  | off
  /-- `ON`. -/
  | on
  /-- `FRAME a b c d`. -/
  | frame (a b c d : Byte)
  /-- `REPEAT`: the three pulses of the repeat frame. -/
  | repeatCode
  /-- `RAW [v0, v1, ...]`. -/
  | raw (p : Train)
deriving DecidableEq, Repr

/-- The pulse train a form stands for; a role name is `KEY` with the configuration's code (R85). -/
def rxTrain (c : Config) (f : RxForm) : Train :=
  match f with
  | .noPulses => []
  | .key b => keyFrame b
  | .color => keyFrame c.codeColor
  | .anim => keyFrame c.codeAnim
  | .speed => keyFrame c.codeSpeed
  | .off => keyFrame c.codeOff
  | .on => keyFrame c.codeOn
  | .frame a b d e => canonicalFrame a b d e
  | .repeatCode => repeatFrame
  | .raw p => p

/-- `HOLD <role> x k`: one cycle with the role's KEY, then `k` cycles with REPEAT (R86). -/
def holdForms (role : RxForm) (k : Nat) : List RxForm := role :: List.replicate k .repeatCode

/-- One line of a script, one cycle: `AT <T> RX <what>` (R85). -/
structure ScriptLine where
  time : Nat
  rx : RxForm
deriving DecidableEq, Repr

/-- The ticks between the timer values that consecutive lines name. -/
def scriptTicks : Nat → List ScriptLine → List Nat
  | _, [] => []
  | now, l :: ls => (l.time - now) :: scriptTicks (max l.time now) ls

/-- Lay a script before the block: the next cycles read its timer values and capture its trains. DESIGN CHOICE (log 26):
pulses that the capture buffer already holds stay there, so the first scripted `CapRead()` returns them before its
`<what>`, and a train longer than `CAPTURE_MAX` is cut. -/
def loadScript (ls : List ScriptLine) (s : State) : State :=
  { s with clk := scriptTicks s.t ls, rx := ls.map fun l => rxTrain s.cfg l.rx }

end Sys2Proof.Machine
end

