-- ==== Sys2Proof/Tests/Slice0.lean ====
section
/-! SUPPORT. Tests: the well-formedness smoke, words written out from the spec's encodings, the vectors of
95_test_vectors.md (their ids are in the comments), and a witness for every statement that has hypotheses. -/

namespace Sys2Proof.Tests

open Sys2Proof.Machine Sys2Proof.Safety

/-! ## Helpers -/

/-- The value of an outcome that is a next state. -/
def value? {α : Type} (o : Result α) : Option α :=
  match o with
  | .next a => some a
  | .fault _ => none
  | .refused _ => none

theorem next_of_value? {α : Type} {o : Result α} (h : (value? o).isSome = true) : ∃ a, o = .next a := by
  cases o with
  | next a => exact ⟨a, rfl⟩
  | fault _ => cases h
  | refused _ => cases h

/-- A state under TC1 with the tuple `(PAL, MODE, SPD, PWR)`. -/
def tuple (pal : Nat) (mode : Mode) (spd : Fin speedTierCount) (pwr : Bool) : State :=
  { State.reset with pal := pal, mode := mode, spd := spd, pwr := pwr }

/-- The tuple `(PAL, MODE, SPD, PWR)` of the vectors' "state after" column. -/
structure Tuple where
  pal : Nat
  mode : Mode
  spd : Fin speedTierCount
  pwr : Bool
deriving DecidableEq, Repr

/-- A state's tuple. -/
def tupleOf (s : State) : Tuple := ⟨s.pal, s.mode, s.spd, s.pwr⟩

/-- The frame C, `KEY 0x10`, written out pulse by pulse (95_test_vectors.md section 2). -/
def frameC : Train :=
  [9000, 4500,
   562, 562, 562, 562, 562, 562, 562, 562, 562, 562, 562, 562, 562, 562, 562, 562,
   562, 1687, 562, 1687, 562, 1687, 562, 1687, 562, 1687, 562, 1687, 562, 1687, 562, 1687,
   562, 562, 562, 562, 562, 562, 562, 562, 562, 1687, 562, 562, 562, 562, 562, 562,
   562, 1687, 562, 1687, 562, 1687, 562, 1687, 562, 562, 562, 1687, 562, 1687, 562, 1687,
   562]

/-- C with `P[k] = v`. -/
def withPulse (k : Nat) (v : Pulse) : Train := frameC.set k v

/-- The observable result and the cause label of a train under TC1. -/
def dv (p : Train) : Option Byte × Option Cause := (decode Config.tc1 p, causeOf Config.tc1 p)

/-- The vectors' `NoCommand` with its label. -/
def failing (c : Cause) : Option Byte × Option Cause := (none, some c)

/-- The vectors' `Command(0x10)`. -/
def command10 : Option Byte × Option Cause := (some 0x10, none)

/-! ## Well-formedness: one ill-formed term a check, and the check refuses it -/

theorem test_wf_tc1 : Config.tc1.WF := by decide

theorem test_wf_refuses_no_palette : ¬ ({ Config.tc1 with paletteCount := 0, palrom := [] } : Config).WF := by decide

theorem test_wf_refuses_missing_palette_row : ¬ ({ Config.tc1 with paletteCount := 4 } : Config).WF := by decide

theorem test_wf_refuses_no_pixel : ¬ ({ Config.tc1 with pixelCount := 0 } : Config).WF := by decide

theorem test_wf_refuses_zero_interval :
    ¬ ({ Config.tc1 with speedTicks := #v[400, 200, 100, 0, 25] } : Config).WF := by decide

theorem test_wf_refuses_length_window_reversed : ¬ ({ Config.tc1 with minPulses := 71 } : Config).WF := by decide

/-- R5, D7: 71 is the least `CAPTURE_MAX` beside the default window. -/
theorem test_wf_refuses_small_capture : ¬ ({ Config.tc1 with captureMax := 70 } : Config).WF ∧
    ({ Config.tc1 with captureMax := 71 } : Config).WF := by decide

/-- R5, R34: tier 2 is 100 ticks, the other tiers are open. -/
theorem test_wf_refuses_other_tier_two :
    ¬ ({ Config.tc1 with speedTicks := #v[400, 200, 99, 50, 25] } : Config).WF ∧
    ({ Config.tc1 with speedTicks := #v[1, 1, 100, 1, 1] } : Config).WF := by decide

theorem test_wf_refuses_equal_codes : ¬ ({ Config.tc1 with codeOn := 0x10 } : Config).WF := by decide

theorem test_wf_refuses_window_reversed : ¬ ({ Config.tc1 with bitMark := ⟨704, 703⟩ } : Config).WF := by decide

theorem test_wf_refuses_window_above_65535 : ¬ ({ Config.tc1 with leaderMark := ⟨6750, 65536⟩ } : Config).WF := by decide

theorem test_wf_refuses_header_windows_meeting :
    ¬ ({ Config.tc1 with repeatSpace := ⟨1687, 3375⟩ } : Config).WF := by decide

theorem test_wf_refuses_space_windows_meeting : ¬ ({ Config.tc1 with space0 := ⟨422, 1266⟩ } : Config).WF := by decide

theorem test_wf_refuses_reset_palette : ¬ ({ Config.tc1 with resetPal := 3 } : Config).WF := by decide

theorem test_wf_refuses_nop_of_bound_code : ¬ (Instr.nop 0x12).WF Config.tc1 := by simp only [Instr.WF]; decide

theorem test_wf_refuses_frame_uncarried : ¬ (Instr.frame 0 0 0 0).WF { Config.tc1 with minPulses := 68 } := by
  simp only [Instr.WF]; decide

theorem test_wf_refuses_short_repeat : ¬ (Instr.repeatCode repeatFrame).WF Config.tc1 := by
  simp only [Instr.WF]; decide

theorem test_wf_refuses_repeat_without_header : ¬ (Instr.repeatCode frameC).WF Config.tc1 := by
  simp only [Instr.WF]; decide

theorem test_wf_refuses_illegal_that_is_repeat : ¬ (Instr.illegalTrain (withPulse 1 2250)).WF Config.tc1 := by
  simp only [Instr.WF]; decide

theorem test_wf_refuses_illegal_that_is_frame : ¬ (Instr.illegalTrain frameC).WF Config.tc1 := by
  simp only [Instr.WF]; decide

/-! ## Decoding words written out from the spec's encodings -/

/-- Section 2: the frame written out is KEY 0x10. -/
theorem test_key_frame_written_out : keyFrame 0x10 = frameC := by decide

/-- FRAME, from C; REPEAT and ILLEGAL_TRAIN from R77 and R81. -/
theorem test_decode_train_rows :
    decodeTrain Config.tc1 frameC = .frame 0x00 0xFF 0x10 0xEF ∧
    decodeTrain Config.tc1 (withPulse 1 2250) = .repeatCode (withPulse 1 2250) ∧
    decodeTrain Config.tc1 [9000, 2250, 562] = .illegalTrain [9000, 2250, 562] := by decide

/-- Section 2's table: the spaces of the cells of `B[2]` and `B[3]` of the other keys. -/
theorem test_key_spaces :
    ((List.range 8).map fun k => (keyFrame 0x11)[35 + 2 * k]?) = [1687, 562, 562, 562, 1687, 562, 562, 562].map some ∧
    ((List.range 8).map fun k => (keyFrame 0x13)[51 + 2 * k]?) =
      [562, 562, 1687, 1687, 562, 1687, 1687, 1687].map some ∧
    ((List.range 8).map fun k => (keyFrame 0x55)[35 + 2 * k]?) =
      [1687, 562, 1687, 562, 1687, 562, 1687, 562].map some := by decide

/-- CMD8 rows with TC1's codes (R78, MV10, MV11). -/
theorem test_decode_command_bytes :
    ([0x10, 0x11, 0x12, 0x13, 0x14, 0x55, 0x00, 0xFF, 0x0F, 0x15].map (decodeCommand Config.tc1)) =
      [.color, .anim, .speed, .off, .on, .nop 0x55, .nop 0x00, .nop 0xFF, .nop 0x0F, .nop 0x15] := by decide

/-- SEQ2 rows (R84). -/
theorem test_decode_sequencer_words :
    ([0#2, 1#2, 2#2, 3#2].map fun w => decodeCode Config.tc1 (.seq2 w)) = [.renderAll, .poll, .apply, .flush] := by
  decide

/-- The opcode table's numbering (log 12): FRAME 0x00 0xFF 0x10 0xEF has byte 0 in its low bits. -/
theorem test_decode_table_words :
    decodeTableWord 8 0 = some .renderAll ∧ decodeTableWord 8 3 = some .flush ∧ decodeTableWord 8 0x13 = some .off ∧
    decodeTableWord 32 0xEF10FF00 = some (.frame 0x00 0xFF 0x10 0xEF) ∧ decodeTableWord 16 0 = none ∧
    decodeTableWord 8 256 = none := by decide

/-! ## The decoder's vectors -/

/-- DV1 to DV5. -/
theorem test_dv_short :
    [[], [9000, 2250, 562], frameC.take 59, frameC.take 60, frameC.take 65].map dv =
      [failing .len, failing .len, failing .len, failing .format, failing .format] := by decide

/-- DV6 to DV10, DV42, DV46. -/
theorem test_dv_trailer :
    [frameC.take 66, frameC, frameC ++ [65535], frameC ++ [65535, 300, 200], frameC ++ [65535, 500, 500, 500],
      withPulse 66 0, frameC ++ frameC].map dv =
      [command10, command10, command10, command10, failing .len, command10, failing .len] := by decide

/-- DV11 to DV16, DV44, DV45. -/
theorem test_dv_one_bad_pulse :
    [withPulse 1 2250, withPulse 0 5000, withPulse 1 3000, withPulse 3 1000, withPulse 2 900, withPulse 40 900,
      withPulse 65 1000, withPulse 64 100].map dv =
      [failing .repeatHeader, failing .format, failing .format, failing .format, failing .format, failing .format,
        failing .format, failing .format] := by decide

/-- DV17 to DV20, DV51. -/
theorem test_dv_bytes :
    [canonicalFrame 0x00 0xFF 0x10 0x00, canonicalFrame 0x12 0x34 0x10 0x56, canonicalFrame 0x00 0x00 0xFF 0x00,
      canonicalFrame 0xFF 0xFF 0x00 0xFF, keyFrame 0x11, keyFrame 0x55].map (decode Config.tc1) =
      [some 0x10, some 0x10, some 0xFF, some 0x00, some 0x11, some 0x55] := by decide

/-- DV21 to DV28, with `B[0]`. -/
theorem test_dv_space_edges :
    [421, 422, 703, 704, 1265, 1266, 2109, 2110].map (fun v => decodeTrain Config.tc1 (withPulse 3 v)) =
      [.illegalTrain (withPulse 3 421), .frame 0x00 0xFF 0x10 0xEF, .frame 0x00 0xFF 0x10 0xEF,
        .illegalTrain (withPulse 3 704), .illegalTrain (withPulse 3 1265), .frame 0x01 0xFF 0x10 0xEF,
        .frame 0x01 0xFF 0x10 0xEF, .illegalTrain (withPulse 3 2110)] := by decide

/-- DV29. -/
theorem test_dv_mark_edges :
    [421, 422, 703, 704].map (fun v => decode Config.tc1 (withPulse 2 v)) = [none, some 0x10, some 0x10, none] := by
  decide

/-- DV30 to DV33. -/
theorem test_dv_leader_mark_edges :
    [6749, 6750, 11250, 11251].map (fun v => dv (withPulse 0 v)) =
      [failing .format, command10, command10, failing .format] := by decide

/-- DV34 to DV41. -/
theorem test_dv_leader_space_edges :
    [3374, 3375, 5625, 5626, 1686, 1687, 2812, 2813].map (fun v => dv (withPulse 1 v)) =
      [failing .format, command10, command10, failing .format, failing .format, failing .repeatHeader,
        failing .repeatHeader, failing .format] := by decide

/-- DV47 to DV49. -/
theorem test_dv_noise :
    [[300, 200, 300, 200, 300, 200, 300, 200, 300, 200, 300, 200], List.replicate 67 65535, List.replicate 67 0].map dv =
      [failing .len, failing .format, failing .format] := by decide

/-- DV43, DV50: the guard `n >= 2` under other length windows. -/
theorem test_dv_small_windows :
    causeOf { Config.tc1 with minPulses := 3 } [9000, 2250, 562] = some .repeatHeader ∧
    causeOf { Config.tc1 with minPulses := 2 } [9000, 2250] = some .repeatHeader ∧
    causeOf { Config.tc1 with minPulses := 1 } [9000] = some .format ∧
    causeOf { Config.tc1 with minPulses := 0 } [] = some .format := by decide

/-! ## The renderer's vectors -/

/-- RV16, RV17: the step index on unit boundaries, and one tick after and before them. -/
theorem test_rv_boundaries :
    (List.range 15).map (fun q => (stepAt Config.tc1 .pulse 2 (100 * q) 0).val) =
      [0, 1, 2, 3, 4, 5, 6, 7, 6, 5, 4, 3, 2, 1, 0] ∧
    (List.range 15).map (fun q => (stepAt Config.tc1 .pulse 2 (100 * q + 1) 0).val) =
      [0, 1, 2, 3, 4, 5, 6, 7, 5, 4, 3, 2, 1, 0, 0] ∧
    (List.range 15).map (fun q => (stepAt Config.tc1 .pulse 2 (100 * q + 99) 0).val) =
      [0, 1, 2, 3, 4, 5, 6, 7, 5, 4, 3, 2, 1, 0, 0] := by decide

/-- RV18 to RV22, RV24. -/
theorem test_rv_other_intervals :
    [3199, 3200, 3201, 5599, 5600].map (fun t => (stepAt Config.tc1 .pulse 0 t 0).val) = [7, 6, 5, 0, 0] ∧
    [0, 1, 2, 3, 4].map (fun k => (stepAt Config.tc1 .pulse k 1000 0).val) = [2, 5, 4, 6, 2] := by decide

/-- RV23: an interval of one tick. -/
theorem test_rv_interval_one :
    (List.range 16).map (fun t => (stepAt { Config.tc1 with speedTicks := #v[1, 1, 100, 1, 1] } .pulse 0 t 0).val) =
      [0, 1, 2, 3, 4, 5, 6, 7, 6, 5, 4, 3, 2, 1, 0, 1] := by decide

/-- RV25, RV27: negative offset times, and the pattern along the strip. -/
theorem test_rv_moving_pulse :
    (List.range 16).map (fun i => (stepAt Config.tc1 .movingPulse 2 0 i).val) =
      [0, 1, 2, 3, 4, 5, 6, 7, 6, 5, 4, 3, 2, 1, 0, 1] ∧
    (List.range 16).map (fun i => (stepAt Config.tc1 .movingPulse 2 50 i).val) =
      [0, 0, 1, 2, 3, 4, 5, 7, 6, 5, 4, 3, 2, 1, 0, 0] ∧
    (List.range 16).map (fun i => (stepAt Config.tc1 .movingPulse 2 250 i).val) =
      [2, 1, 0, 0, 1, 2, 3, 4, 5, 7, 6, 5, 4, 3, 2, 1] ∧
    (stepAt Config.tc1 .movingPulse 2 350 4).val = 0 := by decide

/-- RV29 to RV33. -/
theorem test_rv_words :
    renderWord Config.tc1 2 .movingPulse 4 false 777 9 = some 0x000000 ∧
    renderWord Config.tc1 1 .pulse 2 true 700 0 = some 0x020008 ∧
    renderWord Config.tc1 2 .movingPulse 2 true 700 3 = some 0x030005 ∧
    renderWord Config.tc1 0 .pulse 2 true 18446744073709551615 0 = some 0x010001 ∧
    renderWord Config.tc1 0 .movingPulse 2 true 18446744073709551615 7 = some 0x010008 := by decide

/-! ## The instructions' vectors: at most two small tests an instruction -/

/-- MV1, MV2, MV12. -/
theorem test_color :
    [tuple 0 .pulse 0 true, tuple 2 .pulse 0 true, tuple 0 .movingPulse 4 false].map
      (fun s => (value? (exec .color s)).map tupleOf) =
      [some ⟨1, .pulse, 0, true⟩, some ⟨0, .pulse, 0, true⟩, some ⟨1, .movingPulse, 4, false⟩] := by decide

/-- MV3, MV4. -/
theorem test_anim :
    [tuple 1 .pulse 2 true, tuple 1 .movingPulse 2 true].map (fun s => (value? (exec .anim s)).map tupleOf) =
      [some ⟨1, .movingPulse, 2, true⟩, some ⟨1, .pulse, 2, true⟩] := by decide

/-- MV5, MV6, MV13. -/
theorem test_speed :
    [tuple 1 .pulse 1 true, tuple 1 .pulse 4 true, tuple 0 .movingPulse 4 false].map
      (fun s => (value? (exec .speed s)).map tupleOf) =
      [some ⟨1, .pulse, 2, true⟩, some ⟨1, .pulse, 0, true⟩, some ⟨0, .movingPulse, 0, false⟩] := by decide

/-- MV7, MV8: OFF from a lit buffer, and again when already off. -/
theorem test_off :
    [{ tuple 1 .movingPulse 2 true with pix := [1, 2, 3, 4] }, tuple 1 .movingPulse 2 false].map
      (fun s => (value? (exec .off s)).map fun t => (tupleOf t, t.pix, t.shows)) =
      [some (⟨1, .movingPulse, 2, false⟩, [0, 0, 0, 0], [[0, 0, 0, 0]]),
       some (⟨1, .movingPulse, 2, false⟩, [0, 0, 0, 0], [[0, 0, 0, 0]])] := by decide

/-- MV9, MV14: single press; the buffer is not touched. -/
theorem test_on :
    [{ tuple 1 .movingPulse 2 false with pix := [1, 2, 3, 4] }, tuple 1 .pulse 2 true].map
      (fun s => (value? (exec .on s)).map fun t => (tupleOf t, t.pix, t.shows)) =
      [some (⟨1, .movingPulse, 2, true⟩, [1, 2, 3, 4], []), some (⟨1, .pulse, 2, true⟩, [0, 0, 0, 0], [])] := by decide

/-- MV10. -/
theorem test_nop : value? (exec (.nop 0x55) (tuple 2 .pulse 2 true)) = some (tuple 2 .pulse 2 true) := by decide

/-- R148: FRAME latches byte 2. -/
theorem test_frame :
    (value? (exec (.frame 0x12 0x34 0x10 0x56) State.reset)).map (fun t => (t.cmdv, t.cmd, t.seq)) =
      some (true, 0x10, .apply) := by decide

/-- R163: the last command stays latched in `CMD` and is not valid. -/
theorem test_repeat :
    (value? (exec (.repeatCode (withPulse 1 2250)) { State.reset with cmdv := true, cmd := 0x10 })).map
      (fun t => (t.cmdv, t.cmd, t.seq)) = some (false, 0x10, .apply) := by decide

/-- R81. -/
theorem test_illegal_train :
    (value? (exec (.illegalTrain []) { State.reset with cmdv := true, cmd := 0x10 })).map
      (fun t => (t.cmdv, t.cmd, t.seq)) = some (false, 0x10, .apply) := by decide

/-- LV1, after RENDER_ALL. -/
theorem test_render_all :
    (value? (exec .renderAll { tuple 1 .movingPulse 2 true with clk := [1250] })).map
      (fun t => (t.tf, t.pix, t.seq, t.shows)) =
      some (1250, [0x020002, 0x020003, 0x020004, 0x020005], .poll, []) := by decide

/-- R146, PWR = 0. -/
theorem test_render_all_off :
    (value? (exec .renderAll { tuple 1 .movingPulse 2 false with clk := [1250], pix := [1, 2, 3, 4] })).map (·.pix) =
      some [0, 0, 0, 0] := by decide

/-- LV1, after POLL; the buffer's pulses come before the arriving ones. -/
theorem test_poll :
    (value? (exec .poll { State.reset with cap := (keyFrame 0x12).take 20, rx := [(keyFrame 0x12).drop 20] })).map
      (fun t => (t.cmdv, t.cmd, t.seq, t.cap)) = some (true, 0x12, .apply, []) := by decide

/-- LV2, after POLL: `CMDV` = 0 and `CMD` unchanged. -/
theorem test_poll_nothing :
    (value? (exec .poll { State.reset with cmdv := true, cmd := 0x12, rx := [[]] })).map
      (fun t => (t.cmdv, t.cmd, t.seq)) = some (false, 0x12, .apply) := by decide

/-- LV1 and LV3, after APPLY. -/
theorem test_apply :
    (value? (exec .apply { tuple 1 .movingPulse 2 true with cmdv := true, cmd := 0x12 })).map
      (fun t => (tupleOf t, t.cmdv, t.cmd, t.seq)) = some (⟨1, .movingPulse, 3, true⟩, false, 0x12, .flush) ∧
    (value? (exec .apply { tuple 1 .movingPulse 2 true with cmdv := true, cmd := 0x13, pix := [1, 2, 3, 4] })).map
      (fun t => (tupleOf t, t.pix, t.shows)) =
      some (⟨1, .movingPulse, 2, false⟩, [0, 0, 0, 0], [[0, 0, 0, 0]]) := by decide

/-- LV2, after APPLY: a latched byte without `CMDV` is not performed. -/
theorem test_apply_nothing :
    (value? (exec .apply { tuple 1 .pulse 2 true with cmdv := false, cmd := 0x10 })).map
      (fun t => (tupleOf t, t.seq)) = some (⟨1, .pulse, 2, true⟩, .flush) := by decide

/-- LV1, after FLUSH. -/
theorem test_flush :
    (value? (exec .flush { State.reset with pix := [1, 2, 3, 4], shows := [[9, 9, 9, 9]] })).map
      (fun t => (t.shows, t.disp, t.pix, t.seq)) =
      some ([[9, 9, 9, 9], [1, 2, 3, 4]], [1, 2, 3, 4], [1, 2, 3, 4], .renderAll) := by decide

/-- RV31, for a pixel inside the strip and one beyond it (R134: every natural `i`). -/
theorem test_render :
    [3, 17].map (fun i => (value? (exec (.render i) { tuple 2 .movingPulse 2 true with tf := 700 })).map (·.rgb)) =
      [some 0x030005, some 0x030005] := by decide

/-- R6: every instruction is refused under an ill-formed configuration. -/
theorem test_ill_formed_refused :
    [Instr.color, .anim, .speed, .off, .on, .nop 0x55, .frame 0 0 0 0, .repeatCode [], .illegalTrain [], .renderAll,
      .poll, .apply, .flush, .render 0].all
      (fun i => (value? (exec i (State.resetWith { Config.tc1 with codeOn := 0x10 }))).isNone) = true := by decide

/-! ## Reset, steps, placed words, scripts -/

/-- R181's defaults. -/
theorem test_reset : tupleOf State.reset = ⟨0, .pulse, 0, true⟩ ∧ State.reset.seq = .renderAll ∧ State.reset.t = 0 ∧
    State.reset.cmdv = false := by decide

/-- A placed word runs in the very next step (log 13): RENDER_ALL, POLL, FLUSH, OFF, and a frame. -/
theorem test_placed_words :
    (value? (step (State.reset.withFetchWord 8 3))).map (fun t => (t.seq, t.shows.length)) = some (.renderAll, 1) ∧
    (value? (step (State.reset.withFetchWord 8 0x13))).map (fun t => (t.seq, t.pwr, t.shows.length)) =
      some (.flush, false, 1) ∧
    (value? (step (State.reset.withFetchWord 32 0xEF10FF00))).map (fun t => (t.seq, t.cmdv, t.cmd)) =
      some (.apply, true, 0x10) := by decide

/-- With a free clock and a free receiver the placed RENDER_ALL and POLL still answer a next state (log 6, log 7). -/
theorem test_free_draws_complete :
    (∃ t, step (State.reset.withFetchWord 8 0) = .next t) ∧ ∃ t, step (State.reset.withFetchWord 8 1) = .next t := by
  constructor
  · have e : State.reset.withFetchWord 8 0 = State.reset := by decide
    obtain ⟨u, hu⟩ := renderPixels_completes (is := List.range State.reset.cfg.pixelCount) (s := latchTime State.reset)
      test_wf_tc1 (by decide) (by decide)
    rw [e, step_eq]
    show ∃ t, execRenderAll State.reset = .next t
    unfold execRenderAll
    rw [whenConfigured_of (s := State.reset) test_wf_tc1, hu]
    exact ⟨_, rfl⟩
  · exact ⟨_, whenConfigured_of (s := State.reset.withFetchWord 8 1) test_wf_tc1⟩

/-- R85, R86, P1's first lines as a script from reset: ticks and trains. -/
theorem test_script :
    (loadScript [⟨0, .noPulses⟩, ⟨450, .color⟩, ⟨900, .repeatCode⟩] State.reset).clk = [0, 450, 450] ∧
    (loadScript [⟨0, .noPulses⟩, ⟨450, .color⟩, ⟨900, .repeatCode⟩] State.reset).rx =
      [[], frameC, [9000, 2250, 562]] ∧
    holdForms .color 2 = [.color, .repeatCode, .repeatCode] := by decide

/-- Log 26: what the buffer held comes before the first scripted train. -/
theorem test_script_keeps_buffer :
    captured (loadScript [⟨0, .raw [300, 200]⟩] { State.reset with cap := [111] }) = [111, 300, 200] := by decide

/-- LV4: reset, then one cycle. -/
theorem test_first_cycle :
    (value? (Host.Core.run Sys2Proof.core 4 (loadScript [⟨0, .noPulses⟩] State.reset))).map
      (fun t : State => (t.shows, t.seq)) = some ([[0x010001, 0x010001, 0x010001, 0x010001]], .renderAll) := by decide

/-- LV3: the cycle with OFF shows twice (R155). -/
theorem test_off_cycle :
    (value? (Host.Core.run Sys2Proof.core 4
      (loadScript [⟨1250, .off⟩] (tuple 1 .movingPulse 2 true)))).map (fun t : State => (t.shows, tupleOf t)) =
      some ([[0, 0, 0, 0], [0, 0, 0, 0]], ⟨1, .movingPulse, 2, false⟩) := by decide

/-! ## Witnesses: for each statement with hypotheses, inputs that meet all of them, at the boundary values of its clauses -/

/-- COLOR's states: inside the range and at the wrap. -/
def colorStates : List State := [tuple 0 .pulse 0 true, tuple 2 .pulse 0 true]

/-- A state before each operation, all meeting the invariant: `PIX` the frame of the animation state where it must be. -/
def atRenderAll : State :=
  { tuple 1 .movingPulse 2 true with pix := [7, 7, 7, 7], clk := [1250], rx := [keyFrame 0x13], cap := [], cmd := 0x55 }

def atPoll : State :=
  { atRenderAll with seq := .poll, t := 1250, tf := 1250, pix := [0x020002, 0x020003, 0x020004, 0x020005], clk := [] }

def atApply : State := { atPoll with seq := .apply, cmdv := true, cmd := 0x13, rx := [] }

def atFlush : State :=
  { atApply with
    seq := .flush
    cmdv := false
    pwr := false
    pix := [0, 0, 0, 0]
    disp := [0, 0, 0, 0]
    shows := [[0, 0, 0, 0]] }

theorem test_inv_atRenderAll : Inv atRenderAll := by constructor <;> decide

theorem test_inv_atPoll : Inv atPoll := by constructor <;> decide

theorem test_inv_atApply : Inv atApply := by constructor <;> decide

theorem test_inv_atFlush : Inv atFlush := by constructor <;> decide

/-- Every instruction answers a next state somewhere: the hypothesis of every frame. -/
theorem test_every_instruction_completes :
    [Instr.color, .anim, .speed, .off, .on, .nop 0x55, .frame 1 2 3 4, .repeatCode [], .illegalTrain [], .renderAll, .poll,
      .apply, .flush, .render 0].all (fun i => (value? (exec i atRenderAll)).isSome) = true := by decide

theorem test_meets_DecodeInvertsEncode :
    Config.tc1.WF ∧ (Instr.frame 0x12 0x34 0x10 0x56).WF Config.tc1 ∧ (Instr.nop 0x0F).WF Config.tc1 ∧
    (Instr.nop 0x15).WF Config.tc1 ∧ (Instr.repeatCode (withPulse 1 2812)).WF Config.tc1 ∧
    (Instr.illegalTrain (frameC.take 65)).WF Config.tc1 ∧
    (encode Config.tc1 (.frame 0x12 0x34 0x10 0x56)).isSome = true ∧ encode Config.tc1 (.nop 0x15) = some (.cmd8 0x15) ∧
    (encode Config.tc1 (.repeatCode (withPulse 1 2812))).isSome = true ∧
    (encode Config.tc1 (.illegalTrain (frameC.take 65))).isSome = true := by
  simp only [Instr.WF]
  exact ⟨by decide, by decide, by decide, by decide, by decide, by decide, rfl, rfl, rfl, rfl⟩

theorem test_meets_CommandByteSelectsRole : Config.tc1.WF ∧ (0x0F : Byte) ∉ Config.tc1.codes ∧
    (0x15 : Byte) ∉ Config.tc1.codes := by decide

theorem test_meets_LengthOutsideWindowIsNoCommand : validate Config.tc1 (frameC.take 59).length = false ∧
    validate Config.tc1 (frameC ++ [65535, 500, 500, 500]).length = false ∧
    validate Config.tc1 (frameC.take 60).length = true := by decide

theorem test_meets_RepeatHeaderIsNoCommand : Train.RepeatHeader Config.tc1 (withPulse 1 1687) ∧
    Train.LengthOk Config.tc1 (withPulse 1 1687) ∧ Train.RepeatHeader Config.tc1 (withPulse 1 2812) ∧
    Train.LengthOk Config.tc1 (withPulse 1 2812) := by decide

theorem test_meets_CommandExactlyForFullFrames : Config.tc1.WF ∧ Train.FullFrame Config.tc1 (frameC.take 66) ∧
    ¬ Train.FullFrame Config.tc1 (frameC.take 65) := by decide

theorem test_meets_FrameBytesLeastSignificantFirst : Config.tc1.WF ∧
    decodeTrain Config.tc1 (withPulse 3 1266) = .frame 0x01 0xFF 0x10 0xEF := by decide

theorem test_meets_CommandIndependentOfOtherBytes :
    Config.tc1.WF ∧ (canonicalFrame 0x00 0xFF 0x10 0xEF).length = (canonicalFrame 0x12 0x34 0x10 0x56).length ∧
    decode Config.tc1 (canonicalFrame 0x00 0xFF 0x10 0xEF) = some 0x10 ∧
    decode Config.tc1 (canonicalFrame 0x12 0x34 0x10 0x56) = some 0x10 ∧
    ∀ k < 66, ¬ (k % 2 = 1 ∧ (3 ≤ k ∧ k ≤ 33 ∨ 51 ≤ k ∧ k ≤ 65)) →
      Train.pulseAt (canonicalFrame 0x00 0xFF 0x10 0xEF) k = Train.pulseAt (canonicalFrame 0x12 0x34 0x10 0x56) k := by
  decide

/-- One train a cause: LEN, REPEAT, FORMAT. -/
theorem test_meets_SoftFailureCausesIndistinguishable :
    [[], withPulse 1 2250, frameC.take 65].all
      (fun p => decide (p.length ≤ State.reset.cfg.captureMax ∧ decode State.reset.cfg p = none)) = true := by decide

theorem test_meets_ColorAdvancesPalette : ∀ s ∈ colorStates, s.cfg.WF ∧ s.pal < s.cfg.paletteCount := by decide

theorem test_meets_AnimTogglesMode : (tuple 1 .pulse 2 true).cfg.WF ∧ (tuple 1 .pulse 2 true).mode = .pulse ∧
    (tuple 1 .movingPulse 2 true).mode = .movingPulse := by decide

theorem test_meets_SpeedAdvancesTier : (tuple 1 .pulse 4 true).cfg.WF := by decide

theorem test_meets_OffBlanksAndShows : atApply.cfg.WF ∧ Memory.wf atApply.cfg atApply.pix := by decide

theorem test_meets_OnSetsPowerOnly : atFlush.cfg.WF ∧ atFlush.pwr = false := by decide

theorem test_meets_NopLeavesState : atApply.cfg.WF := by decide

theorem test_meets_RolePeriods : ∀ s ∈ colorStates, s.cfg.WF ∧ s.pal < s.cfg.paletteCount := by decide

theorem test_meets_RegisterRolesFrame : (∃ t, exec .color atApply = .next t) ∧ (∃ t, exec .anim atApply = .next t) ∧
    (∃ t, exec .speed atApply = .next t) ∧ (∃ t, exec .on atFlush = .next t) ∧ ∃ t, exec (.nop 0x55) atApply = .next t :=
  ⟨next_of_value? (by decide), next_of_value? (by decide), next_of_value? (by decide), next_of_value? (by decide),
    next_of_value? (by decide)⟩

theorem test_meets_OffFrame : ∃ t, exec .off atApply = .next t := next_of_value? (by decide)

theorem test_meets_TrainRowsLatchDecodeResult : atPoll.cfg.WF := by decide

theorem test_meets_TrainRowsFrame : (∃ t, exec (.frame 1 2 3 4) atPoll = .next t) ∧
    (∃ t, exec (.repeatCode (withPulse 1 2250)) atPoll = .next t) ∧ ∃ t, exec (.illegalTrain []) atPoll = .next t :=
  ⟨next_of_value? (by decide), next_of_value? (by decide), next_of_value? (by decide)⟩

/-- A capture with a command, and one of no command. -/
theorem test_meets_PollCapturesAndLatches : atPoll.cfg.WF ∧ atPoll.rx = keyFrame 0x13 :: [] ∧
    decode atPoll.cfg (captured atPoll) = some 0x13 ∧
    decode atPoll.cfg (captured { atPoll with rx := [frameC.take 65] }) = none := by decide

theorem test_meets_FailingPollWritesOnlyCmdvAndSeq : atPoll.cfg.WF ∧
    decode atPoll.cfg (captured { atPoll with rx := [frameC.take 65] }) = none := by decide

theorem test_meets_PollWithNoNewPulsesCapturesNothing :
    ∃ t, exec .poll { atPoll with rx := [frameC, []] } = .next t ∧ t.rx = [] :: [] := by
  refine ⟨_, whenConfigured_of (s := { atPoll with rx := [frameC, []] }) test_wf_tc1, ?_⟩
  decide

theorem test_meets_PollFrame : ∃ t, exec .poll atPoll = .next t := next_of_value? (by decide)

theorem test_meets_RenderAllDrawsOneFrame : atRenderAll.cfg.WF ∧ atRenderAll.pal < atRenderAll.cfg.paletteCount ∧
    Memory.wf atRenderAll.cfg atRenderAll.pix ∧ atRenderAll.clk = 1250 :: [] := by decide

theorem test_meets_RenderAllFrame : ∃ t, exec .renderAll atRenderAll = .next t := next_of_value? (by decide)

theorem test_meets_ApplyPerformsLatchedCommand : atApply.cfg.WF ∧ atApply.cmdv = true ∧ atFlush.cfg.WF ∧
    atFlush.cmdv = false := by decide

theorem test_meets_ApplyCompletes : atApply.cfg.WF ∧ Memory.wf atApply.cfg atApply.pix := by decide

/-- APPLY of OFF, APPLY of COLOR, and APPLY of nothing with OFF's byte latched. -/
theorem test_meets_ApplyFrame : (∃ t, exec .apply atApply = .next t) ∧
    (∃ t, exec .apply { atApply with cmd := 0x10 } = .next t) ∧
    (∃ t, exec .apply { atApply with cmdv := false } = .next t) ∧
    decodeCommand atApply.cfg 0x10 ≠ .off ∧ decodeCommand atApply.cfg atApply.cmd = .off :=
  ⟨next_of_value? (by decide), next_of_value? (by decide), next_of_value? (by decide), by decide, by decide⟩

theorem test_meets_FlushShowsBuffer : atFlush.cfg.WF := by decide

theorem test_meets_RenderDeliversColour : atPoll.cfg.WF ∧ atPoll.pal < atPoll.cfg.paletteCount := by decide

/-- The ends of the rising and the falling half. -/
theorem test_meets_StepIndexIsFlooredDocumentStep : (0 < 14 ∧ 0 < 1) ∧ (7 < 14 ∧ 99 < 100) ∧ (8 < 14 ∧ 0 < 100) ∧
    (8 < 14 ∧ 1 < 100) ∧ (13 < 14 ∧ 99 < 100) := by decide

theorem test_meets_PhaseIsExact : 0 < 1 ∧ 0 < 100 := by decide

/-- R137's example: at 250 ticks pixel 3 has -50/100 = 14 * (-1) + 27/2; and pixel 0 at the wrap has phase 0. -/
theorem test_meets_RenderIsDocumentFormula : Config.tc1.WF ∧ (0 : ℚ) ≤ 27 / 2 ∧ (27 / 2 : ℚ) < 14 ∧
    (((250 : Nat) : ℚ) - (if Mode.movingPulse = .movingPulse then ((3 : Nat) : ℚ) else 0) *
      (Config.tc1.speedTicks[(2 : Fin speedTierCount)] : ℚ)) / (Config.tc1.speedTicks[(2 : Fin speedTierCount)] : ℚ) =
      14 * ((-1 : ℤ) : ℚ) + 27 / 2 ∧
    (((1400 : Nat) : ℚ) - (if Mode.pulse = .movingPulse then ((0 : Nat) : ℚ) else 0) *
      (Config.tc1.speedTicks[(2 : Fin speedTierCount)] : ℚ)) / (Config.tc1.speedTicks[(2 : Fin speedTierCount)] : ℚ) =
      14 * ((1 : ℤ) : ℚ) + 0 := by
  have h : Config.tc1.speedTicks[(2 : Fin speedTierCount)] = 100 := rfl
  rw [h]
  exact ⟨by decide, by norm_num, by norm_num, by norm_num, by norm_num⟩

theorem test_meets_RenderPeriodicInTime : Config.tc1.WF := by decide

theorem test_meets_PulseModeIsUniform : (tuple 1 .pulse 2 true).mode = .pulse ∧ 0 < (tuple 1 .pulse 2 true).cfg.pixelCount ∧
    3 < (tuple 1 .pulse 2 true).cfg.pixelCount ∧
    ∃ t, exec .renderAll { tuple 1 .pulse 2 true with clk := [850] } = .next t :=
  ⟨by decide, by decide, by decide, next_of_value? (by decide)⟩

/-- At the boundary `TF = i * I`. -/
theorem test_meets_MovingPulseShifts : Config.tc1.WF ∧ 3 * Config.tc1.speedTicks[(2 : Fin speedTierCount)] ≤ 300 ∧
    0 * Config.tc1.speedTicks[(2 : Fin speedTierCount)] ≤ 0 := by decide

theorem test_meets_RenderStaysInPalette : Config.tc1.WF ∧ 0 < Config.tc1.paletteCount ∧ 2 < Config.tc1.paletteCount := by
  decide

theorem test_meets_SourceScenario : Config.tc1.speedTicks[2] = 100 := by decide

theorem test_meets_SequenceOverOnePeriod : Config.tc1.WF ∧ 0 < Config.tc1.speedTicks[(2 : Fin speedTierCount)] ∧
    99 < Config.tc1.speedTicks[(2 : Fin speedTierCount)] := by decide

/-- A state after reset with other contents than State.reset where R181 gives none. -/
def otherReset : State :=
  { State.reset with tf := 99, cmd := 0x13, pix := [1, 2, 3, 4], disp := [5, 6, 7, 8], cap := [300], clk := [399], rx := [[]] }

theorem test_meets_ResetMeetsInvariant : AtReset otherReset ∧ Config.tc1.WF := ⟨by constructor <;> decide, by decide⟩

theorem test_meets_StepRunsTheOperationOfSeq : atRenderAll.seq.toBits = 0 ∧ atPoll.seq.toBits = 1 ∧
    atApply.seq.toBits = 2 ∧ atFlush.seq.toBits = 3 := by decide

theorem test_meets_StepRunsTheDecodedInstruction : State.reset.cfg.WF ∧ frameC.length ≤ State.reset.cfg.captureMax ∧
    (List.replicate 256 (562 : Pulse)).length ≤ State.reset.cfg.captureMax :=
  ⟨by decide, by decide, by rw [List.length_replicate]; decide⟩

theorem test_meets_SequencerAdvances : (∃ t, step atRenderAll = .next t) ∧ (∃ t, step atPoll = .next t) ∧
    (∃ t, step atApply = .next t) ∧ ∃ t, step atFlush = .next t :=
  ⟨next_of_value? (by decide), next_of_value? (by decide), next_of_value? (by decide), next_of_value? (by decide)⟩

theorem test_meets_StepKeepsInvariant : (Inv atRenderAll ∧ ∃ t, step atRenderAll = .next t) ∧
    (Inv atPoll ∧ ∃ t, step atPoll = .next t) ∧ (Inv atApply ∧ ∃ t, step atApply = .next t) ∧
    (Inv atFlush ∧ ∃ t, step atFlush = .next t) :=
  ⟨⟨test_inv_atRenderAll, test_meets_SequencerAdvances.1⟩, ⟨test_inv_atPoll, test_meets_SequencerAdvances.2.1⟩,
    ⟨test_inv_atApply, test_meets_SequencerAdvances.2.2.1⟩, ⟨test_inv_atFlush, test_meets_SequencerAdvances.2.2.2⟩⟩

theorem test_meets_StepAlwaysCompletes : Inv atRenderAll ∧ Inv atPoll ∧ Inv atApply ∧ Inv atFlush :=
  ⟨test_inv_atRenderAll, test_inv_atPoll, test_inv_atApply, test_inv_atFlush⟩

/-- A cycle that receives OFF, and one that receives nothing. -/
theorem test_meets_CycleShowsOneFrame : Inv atRenderAll ∧ atRenderAll.seq = .renderAll ∧
    decode atRenderAll.cfg (captured (latchTime atRenderAll)) = some atRenderAll.cfg.codeOff ∧
    Inv otherReset ∧ otherReset.seq = .renderAll ∧
    decode otherReset.cfg (captured (latchTime otherReset)) ≠ some otherReset.cfg.codeOff :=
  ⟨test_inv_atRenderAll, by decide, by decide, by constructor <;> decide, by decide, by decide⟩

theorem test_meets_UnspecifiedContentsNeverShown :
    Inv otherReset ∧ Inv { otherReset with tf := 0, cmd := 0, pix := [0, 0, 0, 0], disp := [9, 9, 9, 9], rgb := 3 } ∧
    otherReset.seq = .renderAll ∧
    SameButUnspecified otherReset { otherReset with tf := 0, cmd := 0, pix := [0, 0, 0, 0], disp := [9, 9, 9, 9], rgb := 3 } ∧
    (∃ t, Host.Core.run Sys2Proof.core 4 otherReset = .next t) ∧
    ∃ t, Host.Core.run Sys2Proof.core 4
      { otherReset with tf := 0, cmd := 0, pix := [0, 0, 0, 0], disp := [9, 9, 9, 9], rgb := 3 } = .next t :=
  ⟨by constructor <;> decide, by constructor <;> decide, by decide, rfl,
    next_of_value? (α := State) (by decide), next_of_value? (α := State) (by decide)⟩

/-- Both clauses: before RENDER_ALL; and before POLL, with a `CMD` that is not valid. -/
theorem test_meets_StepKeepsShowAlike :
    (Inv otherReset ∧ Inv { otherReset with tf := 0, cmd := 0, pix := [0, 0, 0, 0], disp := [9, 9, 9, 9], rgb := 3 } ∧
      ShowAlike otherReset { otherReset with tf := 0, cmd := 0, pix := [0, 0, 0, 0], disp := [9, 9, 9, 9], rgb := 3 } ∧
      (∃ t, step otherReset = .next t) ∧
      ∃ t, step { otherReset with tf := 0, cmd := 0, pix := [0, 0, 0, 0], disp := [9, 9, 9, 9], rgb := 3 } = .next t) ∧
    (Inv atPoll ∧ Inv { atPoll with cmd := 0x10, disp := [9, 9, 9, 9] } ∧
      ShowAlike atPoll { atPoll with cmd := 0x10, disp := [9, 9, 9, 9] } ∧ (∃ t, step atPoll = .next t) ∧
      ∃ t, step { atPoll with cmd := 0x10, disp := [9, 9, 9, 9] } = .next t) :=
  ⟨⟨by constructor <;> decide, by constructor <;> decide, .inl ⟨by decide, rfl⟩, next_of_value? (by decide),
      next_of_value? (by decide)⟩,
    by constructor <;> decide, by constructor <;> decide, .inr ⟨rfl, by decide⟩, next_of_value? (by decide),
      next_of_value? (by decide)⟩

/-- The last tick of the first unit: 399 of 400. -/
theorem test_meets_FirstFrameAfterReset : AtReset otherReset ∧ otherReset.cfg.resetMode = .pulse ∧
    otherReset.cfg.resetPwr = true ∧ ticksDue otherReset < otherReset.cfg.speedTicks[otherReset.cfg.resetSpd] :=
  ⟨by constructor <;> decide, by decide, by decide, by decide⟩

/-- Off before FLUSH, which adds a blank Show event, and before RENDER_ALL, which adds none. -/
theorem test_meets_OffStaysDark : (Inv atFlush ∧ atFlush.pwr = false ∧ ∃ t, step atFlush = .next t) ∧
    (Inv { atRenderAll with pwr := false } ∧ ∃ t, step { atRenderAll with pwr := false } = .next t) :=
  ⟨⟨test_inv_atFlush, by decide, test_meets_SequencerAdvances.2.2.2⟩, by constructor <;> decide,
    next_of_value? (by decide)⟩

theorem test_meets_AnimationStateWriters : (∃ t, exec .color atApply = .next t ∧ t.pal ≠ atApply.pal) ∧
    (∃ t, exec .anim atApply = .next t ∧ t.mode ≠ atApply.mode) ∧
    (∃ t, exec .speed atApply = .next t ∧ t.spd ≠ atApply.spd) ∧
    ∃ t, exec .on atFlush = .next t ∧ t.pwr ≠ atFlush.pwr :=
  ⟨⟨_, whenConfigured_of (s := atApply) test_wf_tc1, by decide⟩, ⟨_, whenConfigured_of (s := atApply) test_wf_tc1, by decide⟩,
    ⟨_, whenConfigured_of (s := atApply) test_wf_tc1, by decide⟩, _, whenConfigured_of (s := atFlush) test_wf_tc1, by decide⟩

theorem test_meets_OnlyShowReachesTheDisplay : (∃ t, exec .flush atFlush = .next t ∧ t.shows ≠ atFlush.shows) ∧
    (∃ t, exec .renderAll atRenderAll = .next t) ∧ ∃ t, exec .apply atApply = .next t :=
  ⟨⟨_, whenConfigured_of (s := atFlush) test_wf_tc1, by decide⟩, test_meets_RenderAllFrame, test_meets_ApplyFrame.1⟩

theorem test_meets_TimeNeverRunsBackwards : (∃ t, exec .renderAll atRenderAll = .next t) ∧
    ∃ t, exec .poll atPoll = .next t := ⟨test_meets_RenderAllFrame, test_meets_PollFrame⟩

theorem test_meets_EveryInstructionKeepsRanges : (∃ t, exec .color atApply = .next t) ∧
    atApply.pal < atApply.cfg.paletteCount ∧ Memory.wf atApply.cfg atApply.pix :=
  ⟨test_meets_RegisterRolesFrame.1, by decide, by decide⟩

theorem test_meets_IllFormedConfigurationRefused :
    ¬ (State.resetWith { Config.tc1 with codeOn := 0x10 }).cfg.WF := by decide

end Sys2Proof.Tests
end

section
/-! PROOFS. The configuration gate of every instruction (R6), and the invariant kept by every step. -/

namespace Sys2Proof.Machine

/-! ## The configuration gate -/

/-- Every meaning stands behind the gate of R6. -/
theorem exec_eq_whenConfigured (i : Instr) (s : State) : ∃ o, exec i s = whenConfigured s o := by
  cases i <;> exact ⟨_, rfl⟩

theorem exec_refuses_of_not_wf (i : Instr) {s : State} (h : ¬ s.cfg.WF) :
    exec i s = .refused .illFormedConfiguration := by
  obtain ⟨o, ho⟩ := exec_eq_whenConfigured i s
  rw [ho, whenConfigured_of_not h]

/-- Settles O59: every instruction, so the one a step runs too, passes the gate of R6 first. -/
theorem illFormedConfigurationRefused : Obligations.IllFormedConfigurationRefused :=
  fun i s h => ⟨exec_refuses_of_not_wf i h, exec_refuses_of_not_wf (fetch s) h⟩

/-! ## The two loops over every pixel, as one write of the whole buffer -/

theorem PixelsWritten.eq_setPix_map {c : Config} {f : Nat → Option Pixel} {s u : State}
    (h : PixelsWritten (List.range c.pixelCount) f s u) (hn : Memory.wf c s.pix) :
    u = setPix ((List.range c.pixelCount).map fun i => (f i).getD blankPixel) s := by
  rw [← h.pix_eq_map hn]
  exact h.only_pix

end Sys2Proof.Machine

namespace Sys2Proof.Safety

open Sys2Proof.Machine

/-- OFF's loop leaves the blank frame (R114). -/
theorem eq_setPix_blankFrame {s u : State}
    (h : PixelsWritten (List.range s.cfg.pixelCount) (fun _ => some blankPixel) s u) (hn : Memory.wf s.cfg s.pix) :
    u = setPix (blankFrame s.cfg) s := by
  simpa [blankFrame] using h.eq_setPix_map hn

/-- RENDER_ALL latches the time and fills `PIX` with the frame of that time (R146). -/
theorem execRenderAll_eq_setPix_frameOf {s t : State} (hn : Memory.wf s.cfg s.pix) (h : execRenderAll s = .next t) :
    t = setSeq .poll (setPix (frameOf s (s.t + ticksDue s)) (latchTime s)) := by
  obtain ⟨-, u, hu, rfl⟩ := execRenderAll_next h
  exact congrArg (setSeq .poll) (hu.eq_setPix_map hn)

/-! ## The invariant under the parts of the four operations -/

/-- Outside APPLY no command is latched. -/
theorem Inv.cmdv_eq_false {s : State} (h : Inv s) (hq : s.seq ≠ .apply) : s.cmdv = false :=
  Bool.eq_false_iff.2 fun hv => hq (h.commandAtApply hv)

/-- RENDER_ALL's effect, from whatever `PIX`, `TF` and `T` held before (R146). -/
theorem Inv.drawFrame {s : State} (h : Inv s) (hv : s.cmdv = false) :
    Inv (setSeq .poll (setPix (frameOf s (s.t + ticksDue s)) (latchTime s))) :=
  { h with
    pixSized := frameOf_wf s _
    commandAtApply := fun hv' => absurd (hv.symm.trans hv') (by decide)
    timeLatched := fun _ => rfl
    frameCurrent := fun _ => rfl
    darkWhenOff := fun hoff _ => frameOf_off hoff _ }

/-- An emptied capture buffer is bounded (R50, R51). -/
theorem Inv.emptyCapture {s : State} (h : Inv s) : Inv (afterCapture s) :=
  { h with capBounded := Nat.zero_le _ }

/-- From POLL to APPLY `CMDV` and `CMD` may be anything: a command waits there (R148). -/
theorem Inv.enterApply {s : State} (h : Inv s) (hq : s.seq = .poll) (v : Bool) (c : Byte) :
    Inv { s with cmdv := v, cmd := c, seq := .apply } :=
  { h with
    commandAtApply := fun _ => rfl
    timeLatched := fun _ => h.timeLatched (by simp [hq])
    frameCurrent := fun _ => h.frameCurrent (.inl hq)
    darkWhenOff := fun hoff _ => h.darkWhenOff hoff (by simp [hq]) }

/-- From APPLY to FLUSH with the latch cleared (R149). -/
theorem Inv.enterFlush {s : State} (h : Inv s) (hq : s.seq = .apply) : Inv (setSeq .flush (clearCommand s)) :=
  { h with
    commandAtApply := fun hv => absurd hv (by simp)
    timeLatched := fun _ => h.timeLatched (by simp [hq])
    frameCurrent := fun hq' => absurd hq' (by simp)
    darkWhenOff := fun hoff _ => h.darkWhenOff hoff (by simp [hq]) }

/-- At FLUSH the animation state and `PIX` are tied to each other only by "off means dark": a command may write them
(R111 to R115). -/
theorem Inv.commandAtFlush {s : State} (h : Inv s) (hq : s.seq = .flush) {p : Nat} (hp : p < s.cfg.paletteCount)
    (m : Mode) (k : Fin speedTierCount) {b : Bool} {px : List Pixel} (hpx : Memory.wf s.cfg px)
    (hdark : b = false → px = blankFrame s.cfg) :
    Inv { s with pal := p, mode := m, spd := k, pwr := b, pix := px } :=
  { h with
    palInRange := hp
    pixSized := hpx
    frameCurrent := fun hq' => absurd hq' (by simp [hq])
    darkWhenOff := fun hoff _ => hdark hoff }

/-- `Show()` carries a frame of the right size to the display and the events (R55). -/
theorem Inv.showPix {s : State} (h : Inv s) : Inv (showFrame s) :=
  { h with
    dispSized := h.pixSized
    showsSized := fun f hf => by
      rcases List.mem_append.1 hf with hf | hf
      · exact h.showsSized f hf
      · rw [List.mem_singleton.1 hf]; exact h.pixSized
    dispShown := .inr (by simp) }

/-- The start of a cycle asks nothing of `TF` and `PIX` but its size (R150). -/
theorem Inv.enterRenderAll {s : State} (h : Inv s) (hv : s.cmdv = false) : Inv (setSeq .renderAll s) :=
  { h with
    commandAtApply := fun hv' => absurd (hv.symm.trans hv') (by decide)
    timeLatched := fun hq => absurd rfl hq
    frameCurrent := fun hq => absurd hq (by simp)
    darkWhenOff := fun _ hq => absurd rfl hq }

/-! ## The invariant under the four operations -/

theorem execRenderAll_keeps_inv {s t : State} (h : Inv s) (hq : s.seq = .renderAll) (ht : execRenderAll s = .next t) :
    Inv t := by
  rw [execRenderAll_eq_setPix_frameOf h.pixSized ht]
  exact h.drawFrame (h.cmdv_eq_false (by simp [hq]))

theorem execPoll_keeps_inv {s t : State} (h : Inv s) (hq : s.seq = .poll) (ht : execPoll s = .next t) : Inv t := by
  obtain ⟨-, rfl⟩ := execPoll_next ht
  obtain ⟨-, hl⟩ | ⟨c, -, hl⟩ := latchDecoded_cases (decode s.cfg (captured s)) (afterCapture s) <;> rw [hl]
  · exact h.emptyCapture.enterApply hq false s.cmd
  · exact h.emptyCapture.enterApply hq true c

/-- A command performed by APPLY does at FLUSH what it does at APPLY: no role reads or writes `SEQ` and the latch. -/
theorem applyCommand_keeps_inv {c : Byte} {s u : State} (h : Inv s) (hq : s.seq = .apply)
    (hu : applyCommand c s = .next u) : Inv (setSeq .flush (clearCommand u)) := by
  have hf : Inv (setSeq .flush (clearCommand s)) := h.enterFlush hq
  have hdark : s.pwr = false → s.pix = blankFrame s.cfg := fun hoff => h.darkWhenOff hoff (by simp [hq])
  obtain ⟨-, rfl⟩ | ⟨-, m, -, rfl⟩ | ⟨-, k, -, rfl⟩ | ⟨-, w, hw, rfl⟩ | ⟨-, rfl⟩ | ⟨-, rfl⟩ := applyCommand_cases hu
  · -- COLOR (R111)
    have hp : (s.pal + 1) % s.cfg.paletteCount < s.cfg.paletteCount := Nat.mod_lt _ (wf_paletteCount_pos h.configured)
    exact hf.commandAtFlush rfl hp s.mode s.spd h.pixSized hdark
  · -- ANIM (R112)
    exact hf.commandAtFlush rfl h.palInRange m s.spd h.pixSized hdark
  · -- SPEED (R113)
    exact hf.commandAtFlush rfl h.palInRange s.mode k h.pixSized hdark
  · -- OFF (R114): dark, and the blank frame is shown
    rw [eq_setPix_blankFrame (s := setPwr false s) hw h.pixSized]
    exact (hf.commandAtFlush rfl h.palInRange s.mode s.spd (b := false) (blankFrame_wf s.cfg) fun _ => rfl).showPix
  · -- ON (R115): nothing need be dark
    exact hf.commandAtFlush rfl h.palInRange s.mode s.spd (b := true) h.pixSized fun hon => absurd hon (by decide)
  · -- NOP (R116)
    exact hf

theorem execApply_keeps_inv {s t : State} (h : Inv s) (hq : s.seq = .apply) (ht : execApply s = .next t) : Inv t := by
  obtain ⟨-, u, ⟨-, rfl⟩ | ⟨-, hu⟩, rfl⟩ := execApply_next ht
  · exact h.enterFlush hq
  · exact applyCommand_keeps_inv h hq hu

theorem execFlush_keeps_inv {s t : State} (h : Inv s) (hq : s.seq = .flush) (ht : execFlush s = .next t) : Inv t := by
  obtain ⟨-, rfl⟩ := execFlush_next ht
  exact h.showPix.enterRenderAll (h.cmdv_eq_false (by simp [hq]))

/-- Settles O49: a step runs the operation that `SEQ` names, and each of the four keeps the invariant where it runs. -/
theorem stepKeepsInvariant : Obligations.StepKeepsInvariant := by
  intro s t h ht
  rw [step_eq] at ht
  cases hq : s.seq <;> rw [hq] at ht
  case renderAll => exact execRenderAll_keeps_inv h hq ht
  case poll => exact execPoll_keeps_inv h hq ht
  case apply => exact execApply_keeps_inv h hq ht
  case flush => exact execFlush_keeps_inv h hq ht

end Sys2Proof.Safety
end

section
/-! PROOFS. The state: reset meets the invariant, `SEQ` counts, and which instruction writes which register and store. -/

namespace Sys2Proof.Safety

open Sys2Proof.Machine

/-! ## Reset -/

/-- At RENDER_ALL with nothing latched and nothing shown, the invariant asks only for ranges and sizes. -/
theorem AtReset.inv {s : State} (h : AtReset s) : Inv s where
  configured := h.configured
  palInRange := by rw [h.pal]; exact wf_resetPal h.configured
  pixSized := h.pixSized
  dispSized := h.dispSized
  showsSized := by simp [h.shows]
  dispShown := .inl h.shows
  capBounded := h.capBounded
  commandAtApply := by simp [h.cmdv]
  timeLatched := fun hq => absurd h.seq hq
  frameCurrent := by simp [h.seq]
  darkWhenOff := fun _ hq => absurd h.seq hq

theorem resetWith_atReset {c : Config} (hc : c.WF) : AtReset (State.resetWith c) where
  configured := hc
  pal := rfl
  mode := rfl
  spd := rfl
  pwr := rfl
  seq := rfl
  t := rfl
  cmdv := rfl
  shows := rfl
  pixSized := reset_memory_wf c
  dispSized := reset_memory_wf c
  capBounded := Nat.zero_le _

/-- Settles O45: every clause about control holds vacuously at RENDER_ALL, and the ranges are R181's values. -/
theorem resetMeetsInvariant : Obligations.ResetMeetsInvariant :=
  ⟨fun _ h => h.inv, fun _ hc => resetWith_atReset hc⟩

/-! ## The sequencer -/

theorem latchDecoded_seq (r : Option Byte) (s : State) : (latchDecoded r s).seq = .apply := by
  cases r <;> rfl

/-- Each of the four operations ends by naming the next one (R27). -/
theorem step_seq {s t : State} (h : step s = .next t) : t.seq = nextSeq s.seq := by
  rw [step_eq] at h
  cases hq : s.seq <;> rw [hq] at h
  case renderAll =>
    obtain ⟨-, u, -, rfl⟩ := execRenderAll_next h
    rfl
  case poll =>
    obtain ⟨-, rfl⟩ := execPoll_next h
    exact latchDecoded_seq _ _
  case apply =>
    obtain ⟨-, u, -, rfl⟩ := execApply_next h
    rfl
  case flush =>
    obtain ⟨-, rfl⟩ := execFlush_next h
    rfl

theorem toBits_nextSeq (q : SeqOp) : (nextSeq q).toBits.toNat = (q.toBits.toNat + 1) % 4 := by
  cases q <;> rfl

/-- Settles O48: a step moves `SEQ` by `nextSeq`, which counts modulo 4. -/
theorem sequencerAdvances : Obligations.SequencerAdvances := by
  intro s t h
  rw [step_seq h, toBits_nextSeq]

/-! ## What an instruction writes of the animation state, the pixels and the display -/

/-- The same configuration, animation state, pixels, display frame and Show events: the rest, that is `SEQ`, the latches,
time, capture, inputs and `rgb`, may differ. -/
def SameButControl (s t : State) : Prop :=
  t = { s with
    seq := t.seq, t := t.t, tf := t.tf, cmdv := t.cmdv, cmd := t.cmd, cap := t.cap
    rgb := t.rgb, clk := t.clk, rx := t.rx, draws := t.draws }

theorem SameButControl.refl (s : State) : SameButControl s s := rfl

/-- Everything an instruction that completes can do outside `SEQ`, the latches, time, capture, inputs and `rgb`, with the
instruction that does it: a command role runs by itself or by APPLY. -/
inductive ExecEffect (i : Instr) (s t : State) : Prop
  | color (hi : i = .color ∨ Applies i s s.cfg.codeColor)
      (ht : SameButControl (setPal ((s.pal + 1) % s.cfg.paletteCount) s) t)
  | anim (hi : i = .anim ∨ Applies i s s.cfg.codeAnim) (m : Mode) (ht : SameButControl (setMode m s) t)
  | speed (hi : i = .speed ∨ Applies i s s.cfg.codeSpeed) (k : Fin speedTierCount)
      (ht : SameButControl (setSpd k s) t)
  | off (hi : i = .off ∨ Applies i s s.cfg.codeOff) (p : List Pixel) (hp : p.length = s.pix.length)
      (ht : SameButControl (showFrame (setPix p (setPwr false s))) t)
  | on (hi : i = .on ∨ Applies i s s.cfg.codeOn) (ht : SameButControl (setPwr true s) t)
  | renderAll (hi : i = .renderAll) (p : List Pixel) (hp : p.length = s.pix.length)
      (ht : SameButControl (setPix p s) t)
  | flush (hi : i = .flush) (ht : SameButControl (showFrame s) t)
  | control (ht : SameButControl s t)

/-- OFF's loop writes nothing but `PIX`, at its length (R114). -/
theorem ExecEffect.of_blanked {i : Instr} {s u t : State} {is : List Nat} {f : Nat → Option Pixel}
    (hi : i = .off ∨ Applies i s s.cfg.codeOff) (hu : PixelsWritten is f (setPwr false s) u)
    (ht : SameButControl (showFrame u) t) : ExecEffect i s t := by
  rw [hu.only_pix] at ht
  exact .off hi u.pix hu.length ht

/-- APPLY has the effect of the role that the latched byte selects (R110, R149). -/
theorem execApply_effect {s t : State} (h : execApply s = .next t) : ExecEffect .apply s t := by
  obtain ⟨-, u, ⟨-, rfl⟩ | ⟨hv, hu⟩, rfl⟩ := execApply_next h
  · exact .control rfl
  · obtain ⟨hr, rfl⟩ | ⟨hr, m, -, rfl⟩ | ⟨hr, k, -, rfl⟩ | ⟨hr, w, hw, rfl⟩ | ⟨hr, rfl⟩ | ⟨-, rfl⟩ :=
      applyCommand_cases hu
    · exact .color (.inr ⟨rfl, hv, roleOf_color hr⟩) rfl
    · exact .anim (.inr ⟨rfl, hv, roleOf_anim hr⟩) m rfl
    · exact .speed (.inr ⟨rfl, hv, roleOf_speed hr⟩) k rfl
    · exact .of_blanked (.inr ⟨rfl, hv, roleOf_off hr⟩) hw rfl
    · exact .on (.inr ⟨rfl, hv, roleOf_on hr⟩) rfl
    · exact .control rfl

/-- RENDER_ALL writes `PIX` at its length, and else the time and `SEQ` (R146). -/
theorem execRenderAll_effect {s t : State} (h : execRenderAll s = .next t) : ExecEffect .renderAll s t := by
  obtain ⟨-, u, hu, rfl⟩ := execRenderAll_next h
  refine .renderAll rfl u.pix hu.length ?_
  rw [hu.only_pix]
  rfl

/-- POLL writes `SEQ`, the latches and the capture only (R148). -/
theorem execPoll_effect {s t : State} (h : execPoll s = .next t) : ExecEffect .poll s t := by
  obtain ⟨-, rfl⟩ := execPoll_next h
  obtain ⟨-, hl⟩ | ⟨c, -, hl⟩ := latchDecoded_cases (decode s.cfg (captured s)) (afterCapture s) <;> rw [hl]
  · exact .control rfl
  · exact .control rfl

/-- An instruction that completes has one of the effects of `ExecEffect`. -/
theorem exec_effect {i : Instr} {s t : State} (h : exec i s = .next t) : ExecEffect i s t := by
  cases i
  case color => obtain ⟨-, ⟨⟩⟩ := whenConfigured_eq_next.1 h; exact .color (.inl rfl) rfl
  case anim => obtain ⟨-, ⟨⟩⟩ := whenConfigured_eq_next.1 h; exact .anim (.inl rfl) _ (.refl _)
  case speed => obtain ⟨-, ⟨⟩⟩ := whenConfigured_eq_next.1 h; exact .speed (.inl rfl) _ (.refl _)
  case off => obtain ⟨-, u, hu, rfl⟩ := execOff_next h; exact .of_blanked (.inl rfl) hu rfl
  case on => obtain ⟨-, ⟨⟩⟩ := whenConfigured_eq_next.1 h; exact .on (.inl rfl) rfl
  case nop | frame | repeatCode | illegalTrain =>
    obtain ⟨-, ⟨⟩⟩ := whenConfigured_eq_next.1 h
    exact .control rfl
  case renderAll => exact execRenderAll_effect h
  case poll => exact execPoll_effect h
  case apply => exact execApply_effect h
  case flush => obtain ⟨-, rfl⟩ := execFlush_next h; exact .flush rfl rfl
  case render => obtain ⟨-, v, -, rfl⟩ := execRender_next h; exact .control rfl

/-- Settles O55: each effect but its own role's leaves an animation register. -/
theorem animationStateWriters : Obligations.AnimationStateWriters := by
  intro i s t h
  cases exec_effect h with
  | color hi ht | anim hi _ ht | speed hi _ ht => rw [ht]; simp [hi]
  | off hi _ _ ht | on hi ht =>
    have hpwr : i = .off ∨ i = .on ∨ Applies i s s.cfg.codeOff ∨ Applies i s s.cfg.codeOn := by tauto
    rw [ht]; simp [hpwr]
  | renderAll _ _ _ ht | flush _ ht | control ht => rw [ht]; simp

/-- Settles O56: two effects write pixels, and the two that show carry the buffer they leave. -/
theorem onlyShowReachesTheDisplay : Obligations.OnlyShowReachesTheDisplay := by
  intro i s t h
  cases exec_effect h with
  | off hi _ _ ht =>
    have hshow : i = .off ∨ i = .flush ∨ Applies i s s.cfg.codeOff := by tauto
    rw [ht]
    exact ⟨fun _ => .inr hi, .inr ⟨hshow, rfl, rfl⟩⟩
  | renderAll hi _ _ ht => rw [ht]; exact ⟨fun _ => .inl hi, .inl ⟨rfl, rfl⟩⟩
  | flush hi ht => rw [ht]; exact ⟨fun hne => absurd rfl hne, .inr ⟨.inr (.inl hi), rfl, rfl⟩⟩
  | color _ ht | anim _ _ ht | speed _ _ ht | on _ ht | control ht =>
    rw [ht]
    exact ⟨fun hne => absurd rfl hne, .inl ⟨rfl, rfl⟩⟩

/-- Settles O58: the configuration is never written, COLOR leaves a palette, and `PIX` is written at its length. -/
theorem everyInstructionKeepsRanges : Obligations.EveryInstructionKeepsRanges := by
  intro i s t h
  cases exec_effect h with
  | color _ ht => rw [ht]; exact ⟨rfl, fun hpal => Nat.mod_lt _ (Nat.zero_lt_of_lt hpal), id⟩
  | off _ _ hp ht | renderAll _ _ hp ht => rw [ht]; exact ⟨rfl, id, hp.trans⟩
  | anim _ _ ht | speed _ _ ht | on _ ht | flush _ ht | control ht => rw [ht]; exact ⟨rfl, id, id⟩

end Sys2Proof.Safety
end

section
/-! PROOFS. The capture buffer across POLL (R51). -/

namespace Sys2Proof.Machine

/-- The decode half of POLL does not touch the capture buffer (R148). -/
@[simp] theorem latchDecoded_cap (r : Option Byte) (s : State) : (latchDecoded r s).cap = s.cap := by
  cases r <;> rfl

/-- POLL leaves the capture buffer empty, whatever it decodes (R51, R147). -/
theorem execPoll_cap_eq_nil {s t : State} (h : execPoll s = .next t) : t.cap = [] := by
  obtain ⟨-, rfl⟩ := execPoll_next h
  rw [latchDecoded_cap, afterCapture_cap]

/-- An empty buffer to which nothing arrives yields the empty train (R51). -/
theorem captured_eq_nil {s : State} (hcap : s.cap = []) (harr : arrivals s = []) : captured s = [] := by
  simp [captured, hcap, harr]

/-- Settles O25: POLL has emptied the buffer, and the script lets nothing arrive before the next capture. -/
theorem pollWithNoNewPulsesCapturesNothing : Obligations.PollWithNoNewPulsesCapturesNothing :=
  fun _ _ _ h hrx => captured_eq_nil (execPoll_cap_eq_nil h) (arrivals_cons hrx)

end Sys2Proof.Machine
end

section
/-! PROOFS. The decoder inverts the encoder, form by form: sequencer words, command bytes, pulse trains;
and a step runs the operation whose word `SEQ` holds. -/

namespace Sys2Proof

open Sys2Proof.Machine

/-! ## Sequencer words (R84) -/

/-- The numbering of the four operations is read back (R84). -/
@[simp] theorem ofBits_toBits (q : SeqOp) : SeqOp.ofBits q.toBits = q := by
  cases q <;> decide

@[simp] theorem decodeCode_seq2_toBits (c : Config) (q : SeqOp) : decodeCode c (.seq2 q.toBits) = q.instr := by
  rw [decodeCode, ofBits_toBits]

/-- An operation is the only one with its `SEQ` value (R84). -/
theorem toBits_inj {q r : SeqOp} : q.toBits = r.toBits ↔ q = r :=
  ⟨fun h => by simpa using congrArg SeqOp.ofBits h, congrArg _⟩

/-! ## Command bytes (R78) -/

/-- A byte selects NOP exactly when no role is bound to it (R78). -/
theorem roleOf_eq_nop_iff {c : Config} {b : Byte} : roleOf c b = .nop ↔ b ∉ c.codes := by
  refine ⟨roleOf_nop, fun h => ?_⟩
  simp only [Config.codes, List.mem_cons, List.not_mem_nil, or_false, not_or] at h
  obtain ⟨hcolor, hanim, hspeed, hoff, hon⟩ := h
  simp [roleOf, hcolor, hanim, hspeed, hoff, hon]

/-- Settles O3: each code selects its own role since the five are distinct, and an unbound byte selects NOP. -/
theorem commandByteSelectsRole : Obligations.CommandByteSelectsRole := by
  intro c hc
  refine ⟨?_, ?_, ?_, ?_, ?_, fun b hb => ?_⟩
  · obtain ⟨h, -⟩ := roleOf_iff hc c.codeColor
    rw [decodeCommand, h.1 rfl]
  · obtain ⟨-, h, -⟩ := roleOf_iff hc c.codeAnim
    rw [decodeCommand, h.1 rfl]
  · obtain ⟨-, -, h, -⟩ := roleOf_iff hc c.codeSpeed
    rw [decodeCommand, h.1 rfl]
  · obtain ⟨-, -, -, h, -⟩ := roleOf_iff hc c.codeOff
    rw [decodeCommand, h.1 rfl]
  · obtain ⟨-, -, -, -, h⟩ := roleOf_iff hc c.codeOn
    rw [decodeCommand, h.1 rfl]
  · rw [decodeCommand, roleOf_eq_nop_iff.2 hb]

/-! ## Pulse trains, by their class (R90) -/

/-- A train of admissible length with the repeat header is REPEAT (R77, R92). -/
theorem decodeTrain_eq_repeatCode {c : Config} {p : Train} (hl : Train.LengthOk c p) (hr : Train.RepeatHeader c p) :
    decodeTrain c p = .repeatCode p := by
  simp [decodeTrain, validate_iff.2 hl, isRepeat_iff.2 hr]

/-- A full frame is the FRAME of the bytes its cells decode to (R76, R96). -/
theorem decodeTrain_eq_frame {c : Config} (hc : c.WF) {p : Train} {bs : List Bool} (hl : Train.LengthOk c p)
    (h66 : framePulses ≤ p.length) (hh : Train.FullHeader c p) (hbs : cells c dataBits (p.drop 2) = some bs) :
    decodeTrain c p = .frame (byteAt bs 0) (byteAt bs 1) (byteAt bs 2) (byteAt bs 3) := by
  simp [decodeTrain, validate_iff.2 hl, isRepeat_of_fullHeader hc hh, isFullHeader_iff.2 hh, h66, hbs]

/-- Cells that decode are valid cells (R74, R95). -/
theorem cellOk_of_cells {c : Config} (hc : c.WF) {p : Train} {n : Nat} {bs : List Bool}
    (h : cells c n (p.drop 2) = some bs) {k : Nat} (hk : k < n) : Train.CellOk c p k := by
  obtain ⟨b, -, hb⟩ := (cells_eq_some h).2 k hk
  exact (cellOk_iff hc).2 ⟨b, hb⟩

/-- Every train that is neither REPEAT nor a full frame is ILLEGAL_TRAIN (R81, R90). -/
theorem decodeTrain_eq_illegalTrain {c : Config} (hc : c.WF) {p : Train}
    (h : ¬ Train.LengthOk c p ∨ (¬ Train.RepeatHeader c p ∧ ¬ Train.FullFrame c p)) :
    decodeTrain c p = .illegalTrain p := by
  rcases decodeTrain_cases c p with ⟨-, e⟩ | ⟨hl, hr, -⟩ | ⟨-, -, -, e⟩ | ⟨hl, -, hf, h66, bs, hbs, -⟩
  · exact e
  · obtain hn | ⟨hn, -⟩ := h
    · exact absurd hl hn
    · exact absurd (isRepeat_iff.1 hr) hn
  · exact e
  · obtain hn | ⟨-, hn⟩ := h
    · exact absurd hl hn
    · exact absurd ⟨hl, h66, isFullHeader_iff.1 hf, fun _ hk => cellOk_of_cells hc hbs hk⟩ hn

/-! ## The canonical frame (R86) -/

@[simp] theorem byteBits_length (b : Byte) : (byteBits b).length = 8 := rfl

/-- The first byte of a list of bits that begins with a byte's bits (R96). -/
theorem byteAt_byteBits_append_zero (b : Byte) (bs : List Bool) : byteAt (byteBits b ++ bs) 0 = b :=
  byteAt_of_bits fun j hj => by interval_cases j <;> rfl

/-- Each later byte is the one before it in the list without its first eight bits (R96). -/
theorem byteAt_byteBits_append_succ (b : Byte) (bs : List Bool) (k : Nat) :
    byteAt (byteBits b ++ bs) (k + 1) = byteAt bs k := by
  have hdrop : (byteBits b ++ bs).drop (8 * (k + 1)) = bs.drop (8 * k) := by
    rw [show 8 * (k + 1) = (byteBits b).length + 8 * k by rw [byteBits_length]; omega, List.drop_length_add_append]
  rw [byteAt, hdrop, byteAt]

/-- The 32 cells of the canonical frame are the bits of its bytes (R72, R75), each byte's bits put before those of the
bytes that follow it. -/
theorem cells_canonicalFrame {c : Config} (hc : c.WF) (hk : c.CarriesCanonical) (b0 b1 b2 b3 : Byte) :
    cells c dataBits ((canonicalFrame b0 b1 b2 b3).drop 2) =
      some (byteBits b0 ++ (byteBits b1 ++ (byteBits b2 ++ (byteBits b3 ++ [])))) := by
  have hdrop : (canonicalFrame b0 b1 b2 b3).drop 2 =
      encodeByte b0 ++ (encodeByte b1 ++ (encodeByte b2 ++ (encodeByte b3 ++ [562]))) := by
    simp [canonicalFrame]
  rw [hdrop, cells_encodeByte hc hk b0 24, cells_encodeByte hc hk b1 16, cells_encodeByte hc hk b2 8,
    cells_encodeByte hc hk b3 0]
  rfl

/-- The canonical frame of four bytes decodes to these bytes (R86). -/
theorem decodeTrain_canonicalFrame {c : Config} (hc : c.WF) (hk : c.CarriesCanonical) (b0 b1 b2 b3 : Byte) :
    decodeTrain c (canonicalFrame b0 b1 b2 b3) = .frame b0 b1 b2 b3 := by
  have ⟨hlen, hmark, hspace, _⟩ := hk
  have hl : Train.LengthOk c (canonicalFrame b0 b1 b2 b3) := by rwa [Train.LengthOk, canonicalFrame_length]
  have h66 : framePulses ≤ (canonicalFrame b0 b1 b2 b3).length := by rw [canonicalFrame_length]; decide
  have hh : Train.FullHeader c (canonicalFrame b0 b1 b2 b3) :=
    ⟨by rw [canonicalFrame_length]; decide, hmark, hspace⟩
  rw [decodeTrain_eq_frame hc hl h66 hh (cells_canonicalFrame hc hk b0 b1 b2 b3)]
  simp only [byteAt_byteBits_append_zero, byteAt_byteBits_append_succ]

/-! ## The round trip, and the words of the spec -/

/-- Settles O1: one case a row of the opcode table, by the round trip of its coded form; RENDER has no code. -/
theorem decodeInvertsEncode : Obligations.DecodeInvertsEncode := by
  intro c i k hc hi hk
  obtain ⟨hcolor, hanim, hspeed, hoff, hon, hnop⟩ := commandByteSelectsRole c hc
  cases i <;> cases hk
  case color => exact hcolor
  case anim => exact hanim
  case speed => exact hspeed
  case off => exact hoff
  case on => exact hon
  case nop b => exact hnop b hi
  case frame b0 b1 b2 b3 => exact decodeTrain_canonicalFrame hc hi b0 b1 b2 b3
  case repeatCode p =>
    obtain ⟨hl, hr⟩ := hi
    exact decodeTrain_eq_repeatCode hl hr
  case illegalTrain p => exact decodeTrain_eq_illegalTrain hc hi
  case renderAll => exact decodeCode_seq2_toBits c .renderAll
  case poll => exact decodeCode_seq2_toBits c .poll
  case apply => exact decodeCode_seq2_toBits c .apply
  case flush => exact decodeCode_seq2_toBits c .flush

/-- Settles O2: the first word is the canonical frame of KEY 0x10, and the lemma of each form gives its words' rows. -/
theorem specWordsDecode : Obligations.SpecWordsDecode := by
  have hc : Config.tc1.WF := by decide
  obtain ⟨hcolor, hanim, hspeed, hoff, hon, hnop⟩ := commandByteSelectsRole Config.tc1 hc
  refine ⟨?_, decodeTrain_eq_illegalTrain hc (.inl (by decide)), decodeTrain_eq_repeatCode (by decide) (by decide),
    hcolor, hanim, hspeed, hoff, hon, hnop 0x55 (by decide), decodeCode_seq2_toBits _ .renderAll,
    decodeCode_seq2_toBits _ .poll, decodeCode_seq2_toBits _ .apply, decodeCode_seq2_toBits _ .flush⟩
  exact decodeTrain_canonicalFrame hc (by decide) 0x00 0xFF 0x10 0xEF

end Sys2Proof

namespace Sys2Proof.Machine

/-! ## The step and the sequencer word (R84) -/

/-- A step in which `SEQ` holds the value of an operation runs that operation (R84). -/
theorem step_of_toBits_eq {s : State} {q : SeqOp} (h : s.seq.toBits = q.toBits) : step s = exec q.instr s := by
  rw [step_eq, toBits_inj.1 h]

/-- Settles O46: a step executes what `SEQ` decodes to, and the numbering of the operations is injective. -/
theorem stepRunsTheOperationOfSeq : Obligations.StepRunsTheOperationOfSeq := fun _ =>
  ⟨rfl, step_of_toBits_eq (q := .renderAll), step_of_toBits_eq (q := .poll), step_of_toBits_eq (q := .apply),
    step_of_toBits_eq (q := .flush)⟩

end Sys2Proof.Machine
end

section
/-! PROOFS. What DECODE returns: a command exactly for a full frame, its bytes bit by bit, and `NoCommand` by its first
causes; and what the pulse-train rows and POLL leave unchanged (R90 to R100, R147, R148). -/

namespace Sys2Proof

/-! ## NoCommand: the length and the repeat header (R91, R92) -/

/-- The length test comes first: a train it rejects is ILLEGAL_TRAIN under any configuration (R90, R91). -/
theorem decodeTrain_of_validate_eq_false {c : Config} {p : Train} (h : validate c p.length = false) :
    decodeTrain c p = .illegalTrain p := by
  simp [decodeTrain, h]

theorem causeOf_of_validate_eq_false {c : Config} {p : Train} (h : validate c p.length = false) :
    causeOf c p = some .len := by
  simp [causeOf, h]

/-- Settles O4: the length test is the first of R90's, and its failure is labelled LEN. -/
theorem lengthOutsideWindowIsNoCommand : Obligations.LengthOutsideWindowIsNoCommand := fun _ _ =>
  ⟨validate_iff, fun h => ⟨by rw [decode, decodeTrain_of_validate_eq_false h]; rfl, causeOf_of_validate_eq_false h⟩⟩

/-- A repeat header carries no command: its train is REPEAT, or ILLEGAL_TRAIN when its length is wrong (R92). -/
theorem decode_eq_none_of_repeatHeader {c : Config} {p : Train} (h : Train.RepeatHeader c p) : decode c p = none := by
  by_cases hl : Train.LengthOk c p
  · rw [decode, decodeTrain_eq_repeatCode hl h]
    rfl
  · have hv : validate c p.length = false := Bool.eq_false_iff.2 fun hv => hl (validate_iff.1 hv)
    rw [decode, decodeTrain_of_validate_eq_false hv]
    rfl

theorem causeOf_of_repeatHeader {c : Config} {p : Train} (hl : Train.LengthOk c p) (h : Train.RepeatHeader c p) :
    causeOf c p = some .repeatHeader := by
  simp [causeOf, validate_iff.2 hl, isRepeat_iff.2 h]

/-- Settles O5: the repeat test follows the length test, and no later test is reached when it succeeds. -/
theorem repeatHeaderIsNoCommand : Obligations.RepeatHeaderIsNoCommand := fun _ _ =>
  ⟨isRepeat_iff, decode_eq_none_of_repeatHeader, fun h hl => causeOf_of_repeatHeader hl h⟩

/-! ## Command: the full frame (R98) -/

/-- A train decodes to FRAME only by passing every test, and its bytes are read off its cells (R90, R96). -/
theorem cells_of_decodeTrain_eq_frame {c : Config} (hc : c.WF) {p : Train} {b0 b1 b2 b3 : Byte}
    (h : decodeTrain c p = .frame b0 b1 b2 b3) :
    Train.FullFrame c p ∧ ∃ bs, cells c dataBits (p.drop 2) = some bs ∧
      b0 = byteAt bs 0 ∧ b1 = byteAt bs 1 ∧ b2 = byteAt bs 2 ∧ b3 = byteAt bs 3 := by
  obtain ⟨-, e⟩ | ⟨-, -, e⟩ | ⟨-, -, -, e⟩ | ⟨hl, -, hf, h66, bs, hbs, e⟩ := decodeTrain_cases c p <;>
    cases h.symm.trans e
  exact ⟨⟨hl, h66, isFullHeader_iff.1 hf, fun _ hk => cellOk_of_cells hc hbs hk⟩, bs, hbs, rfl, rfl, rfl, rfl⟩

/-- The cells of a full frame all decode (R94, R95). -/
theorem cells_of_fullFrame {c : Config} (hc : c.WF) {p : Train} (h : Train.FullFrame c p) :
    ∃ bs, cells c dataBits (p.drop 2) = some bs := by
  obtain ⟨-, h66, -, hcell⟩ := h
  have hlen : 2 * dataBits ≤ (p.drop 2).length := by
    rw [List.length_drop]
    show 2 * 32 ≤ p.length - 2
    omega
  exact cells_completes hlen fun k hk => (cellOk_iff hc).1 (hcell k hk)

/-- Settles O6: a command comes from a FRAME, whose tests are those of a full frame; a full frame passes them all. -/
theorem commandExactlyForFullFrames : Obligations.CommandExactlyForFullFrames := by
  intro c p hc
  constructor
  · rintro ⟨b, hb⟩
    obtain ⟨b0, b1, b3, hd⟩ := decode_eq_some.1 hb
    exact (cells_of_decodeTrain_eq_frame hc hd).1
  · intro h
    obtain ⟨bs, hbs⟩ := cells_of_fullFrame hc h
    obtain ⟨hl, h66, hh, -⟩ := h
    exact ⟨_, decode_eq_some.2 ⟨_, _, _, decodeTrain_eq_frame hc hl h66 hh hbs⟩⟩

/-! ## The bytes of a frame, bit by bit (R96) -/

/-- A valid cell is a 1 exactly when its space is long (R95). -/
theorem eq_true_iff_of_cell {c : Config} (hc : c.WF) {m s : Pulse} {b : Bool} (h : cell c m s = some b) :
    b = true ↔ c.space1.Contains s := by
  constructor
  · rintro rfl
    exact ((cell_eq_true hc).1 h).2
  · intro hs
    cases b
    · have h1 : cell c m s = some true := (cell_eq_true hc).2 ⟨(cell_eq_false.1 h).1, hs⟩
      exact Option.some.inj (h.symm.trans h1)
    · rfl

/-- Bit `j` of byte `k` is set exactly when the space of cell `8k + j` is long (R75, R96). -/
theorem byteAt_getLsbD_iff {c : Config} (hc : c.WF) {p : Train} {n : Nat} {bs : List Bool}
    (h : cells c n (p.drop 2) = some bs) {k j : Nat} (hj : j < 8) (hn : 8 * k + j < n) :
    (byteAt bs k).getLsbD j = true ↔ c.space1.Contains (Train.pulseAt p (3 + 2 * (8 * k + j))) := by
  obtain ⟨-, hcells⟩ := cells_eq_some h
  obtain ⟨b, hb, hcell⟩ := hcells (8 * k + j) hn
  have hspace : Train.pulseAt (p.drop 2) (2 * (8 * k + j) + 1) = Train.pulseAt p (3 + 2 * (8 * k + j)) := by
    rw [pulseAt_drop]
    congr 1
    omega
  rw [byteAt_getLsbD bs k hj, hb, Option.getD_some, eq_true_iff_of_cell hc hcell, hspace]

/-- Settles O7: bit `j` of byte `k` is read from cell `8k + j`, for each of the four bytes. -/
theorem frameBytesLeastSignificantFirst : Obligations.FrameBytesLeastSignificantFirst := by
  intro c p b0 b1 b2 b3 hc hd
  obtain ⟨-, bs, hbs, rfl, rfl, rfl, rfl⟩ := cells_of_decodeTrain_eq_frame hc hd
  refine ⟨decode_eq_some.2 ⟨_, _, _, hd⟩, fun j hj => ?_⟩
  have hbit : ∀ k < 4, (byteAt bs k).getLsbD j = true ↔ c.space1.Contains (Train.pulseAt p (3 + 2 * (8 * k + j))) :=
    fun k hk => byteAt_getLsbD_iff hc hbs hj (show 8 * k + j < 32 by omega)
  refine ⟨?_, hbit 1 (by decide), hbit 2 (by decide), hbit 3 (by decide)⟩
  simpa using hbit 0 (by decide)

/-- A command's bits are the spaces of cells 16 to 23, that is the pulses `P[35], P[37], …, P[49]` (R97, R100). -/
theorem decode_getLsbD_iff {c : Config} (hc : c.WF) {p : Train} {b : Byte} (h : decode c p = some b) {j : Nat}
    (hj : j < 8) : b.getLsbD j = true ↔ c.space1.Contains (Train.pulseAt p (3 + 2 * (16 + j))) := by
  obtain ⟨b0, b1, b3, hd⟩ := decode_eq_some.1 h
  obtain ⟨-, hbits⟩ := frameBytesLeastSignificantFirst c p b0 b1 b b3 hc hd
  obtain ⟨-, -, hcommand, -⟩ := hbits j hj
  exact hcommand

/-- Settles O8: each bit of the command reads one pulse, and the two trains agree there. -/
theorem commandIndependentOfOtherBytes : Obligations.CommandIndependentOfOtherBytes := by
  intro c p p' b b' hc _ hb hb' hsame
  apply BitVec.eq_of_getLsbD_eq
  intro j hj
  have hpulse : Train.pulseAt p (3 + 2 * (16 + j)) = Train.pulseAt p' (3 + 2 * (16 + j)) :=
    hsame _ (by omega) (by omega)
  rw [Bool.eq_iff_iff, decode_getLsbD_iff hc hb hj, decode_getLsbD_iff hc hb' hj, hpulse]

end Sys2Proof

namespace Sys2Proof.Machine

/-! ## The frames of the pulse-train rows and of POLL (R99, R148) -/

/-- Everything the decode half of POLL writes (R148, R167). -/
theorem latchDecoded_eq (r : Option Byte) (s : State) :
    latchDecoded r s = { s with cmdv := r.isSome, cmd := r.getD s.cmd, seq := .apply } := by
  cases r <;> rfl

@[simp] theorem pixRead_latchDecoded (r : Option Byte) (s : State) (k : Nat) :
    pixRead (latchDecoded r s) k = pixRead s k := by
  rw [latchDecoded_eq]
  rfl

@[simp] theorem pixRead_afterCapture (s : State) (k : Nat) : pixRead (afterCapture s) k = pixRead s k := rfl

/-- Of all rows FRAME alone gives a command (R97). -/
theorem commandOf_eq_none {i : Instr} (h : ∀ b0 b1 b2 b3, i ≠ .frame b0 b1 b2 b3) : commandOf i = none := by
  cases i
  case frame b0 b1 b2 b3 => exact absurd rfl (h b0 b1 b2 b3)
  all_goals rfl

/-- A pulse-train row latches what DECODE returns for its train (R148; log 9). -/
theorem exec_trainRow {i : Instr}
    (hi : (∃ b0 b1 b2 b3, i = .frame b0 b1 b2 b3) ∨ (∃ p, i = .repeatCode p) ∨ (∃ p, i = .illegalTrain p))
    (s : State) : exec i s = whenConfigured s (.next (latchDecoded (commandOf i) s)) := by
  obtain ⟨b0, b1, b2, b3, rfl⟩ | ⟨p, rfl⟩ | ⟨p, rfl⟩ := hi <;> rfl

/-- Settles O21: a row writes what it latches, and `CMD` only when DECODE returns a command. -/
theorem trainRowsFrame : Obligations.TrainRowsFrame := by
  intro i s t hi h
  rw [exec_trainRow hi, whenConfigured_eq_next] at h
  obtain ⟨-, ⟨⟩⟩ := h
  refine ⟨fun hne => ?_, ?_⟩
  · rw [commandOf_eq_none hne, latchDecoded_eq]
    rfl
  · simp only [pixRead_latchDecoded]
    simp [latchDecoded_eq]

/-- Settles O26: POLL writes what `CapRead()` leaves and what its decode half latches. -/
theorem pollFrame : Obligations.PollFrame := by
  intro s t h
  obtain ⟨-, rfl⟩ := execPoll_next h
  simp only [pixRead_latchDecoded, pixRead_afterCapture]
  simp [latchDecoded_eq]

end Sys2Proof.Machine
end

section
/-! PROOFS. The command mapper: what each role does and leaves, the periods of COLOR, ANIM and SPEED, and APPLY. -/

namespace Sys2Proof.Machine

/-! ## The roles, one equation each (R111 to R116) -/

theorem exec_color {s : State} (hc : s.cfg.WF) :
    exec .color s = .next (setPal ((s.pal + 1) % s.cfg.paletteCount) s) :=
  whenConfigured_of hc

/-- SPEED's wrap at tier 4 is the wrap of `Fin 5` (R113). -/
theorem exec_speed {s : State} (hc : s.cfg.WF) : exec .speed s = .next (setSpd (s.spd + 1) s) := by
  have hwrap : ∀ k : Fin speedTierCount, (if k = 4 then 0 else k + 1) = k + 1 := by decide
  rw [← hwrap]
  exact whenConfigured_of hc

/-- Settles O10: below `PALETTE_COUNT`, the remainder differs from its operand only at `PALETTE_COUNT` itself. -/
theorem colorAdvancesPalette : Obligations.ColorAdvancesPalette := by
  intro s hc hp
  have hmod : (s.pal + 1) % s.cfg.paletteCount = if s.pal + 1 = s.cfg.paletteCount then 0 else s.pal + 1 := by
    split
    · next heq => rw [heq, Nat.mod_self]
    · next hne => exact Nat.mod_eq_of_lt (by omega)
  rw [exec_color hc, hmod]
  rfl

/-- Settles O11, by the mode ANIM finds. -/
theorem animTogglesMode : Obligations.AnimTogglesMode := by
  intro s hc
  have hexec : exec .anim s = roleAnim s := whenConfigured_of hc
  rw [hexec, roleAnim]
  constructor <;> intro hm <;> rw [hm] <;> rfl

/-- Settles O12: the next tier is the successor in `Fin 5`. -/
theorem speedAdvancesTier : Obligations.SpeedAdvancesTier :=
  fun s hc => ⟨s.spd + 1, Fin.val_add s.spd 1, exec_speed hc⟩

/-- Settles O14: ON is the one update `PWR <- 1`. -/
theorem onSetsPowerOnly : Obligations.OnSetsPowerOnly := fun _ hc => whenConfigured_of hc

/-- Settles O15: NOP answers the state it is given. -/
theorem nopLeavesState : Obligations.NopLeavesState := fun _ _ hc => whenConfigured_of hc

/-! ## No role is gated by the power state (R117) -/

/-- The gate reads the configuration alone: a role that an update of `PWR` passes through stays so behind it. -/
theorem whenConfigured_setPwr {role : State → Result State} {b : Bool} {s : State}
    (h : role (setPwr b s) = andThen (role s) fun t => .next (setPwr b t)) :
    whenConfigured (setPwr b s) (role (setPwr b s)) =
      andThen (whenConfigured s (role s)) fun t => .next (setPwr b t) := by
  by_cases hc : s.cfg.WF
  · rw [whenConfigured_of hc, ← h]
    exact whenConfigured_of hc
  · rw [whenConfigured_of_not hc]
    exact whenConfigured_of_not hc

/-- Settles O16: four roles neither read nor write `PWR`, and OFF and ON overwrite it before anything reads it. -/
theorem commandsNotGatedByPower : Obligations.CommandsNotGatedByPower := by
  intro s b i
  constructor
  · rintro (rfl | rfl | rfl | ⟨x, rfl⟩)
    · exact whenConfigured_setPwr (role := roleColor) rfl
    · exact whenConfigured_setPwr (role := roleAnim) rfl
    · exact whenConfigured_setPwr (role := roleSpeed) rfl
    · exact whenConfigured_setPwr (role := roleNop) rfl
  · rintro (rfl | rfl) <;> rfl

/-! ## The frame of the roles that write one register -/

/-- COLOR, ANIM, SPEED, ON and NOP write each at most its own animation register. -/
theorem registerRole_next {i : Instr} {s t : State}
    (hi : i = .color ∨ i = .anim ∨ i = .speed ∨ i = .on ∨ ∃ b, i = .nop b) (h : exec i s = .next t) :
    ∃ p m k b, t = { s with pal := p, mode := m, spd := k, pwr := b } ∧
      (i ≠ .color → p = s.pal) ∧ (i ≠ .anim → m = s.mode) ∧ (i ≠ .speed → k = s.spd) ∧ (i ≠ .on → b = s.pwr) := by
  obtain rfl | rfl | rfl | rfl | ⟨x, rfl⟩ := hi <;> obtain ⟨-, ⟨⟩⟩ := whenConfigured_eq_next.1 h
  · exact ⟨_, s.mode, s.spd, s.pwr, rfl, by simp⟩
  · exact ⟨s.pal, _, s.spd, s.pwr, rfl, by simp⟩
  · exact ⟨s.pal, s.mode, _, s.pwr, rfl, by simp⟩
  · exact ⟨s.pal, s.mode, s.spd, true, rfl, by simp⟩
  · exact ⟨s.pal, s.mode, s.spd, s.pwr, rfl, by simp⟩

/-- Settles O18: nothing but the four animation registers can change, and each by its own role only. -/
theorem registerRolesFrame : Obligations.RegisterRolesFrame := by
  intro i s t hi h
  obtain ⟨p, m, k, b, rfl, hpal, hmode, hspd, hpwr⟩ := registerRole_next hi h
  exact ⟨hpal, hmode, hspd, hpwr, rfl, rfl, rfl, rfl, rfl, rfl, rfl, rfl, rfl, rfl, rfl, rfl, rfl, fun _ => rfl⟩

end Sys2Proof.Machine

namespace Sys2Proof.Safety

open Sys2Proof.Machine

/-! ## OFF (R114) -/

/-- OFF's loop completes on a buffer of the right size and leaves the blank frame. -/
theorem blankPixels_range {s : State} (hn : Memory.wf s.cfg s.pix) :
    blankPixels (List.range s.cfg.pixelCount) s = .next (setPix (blankFrame s.cfg) s) := by
  have hin : ∀ k ∈ List.range s.cfg.pixelCount, k < s.pix.length := fun k hk => by rwa [hn, ← List.mem_range]
  obtain ⟨u, hu⟩ := blankPixels_completes hin
  rw [hu, eq_setPix_blankFrame (blankPixels_next hu) hn]

/-- Settles O13: the loop runs with `PWR` already 0, and `Show()` copies the blank frame it leaves. -/
theorem offBlanksAndShows : Obligations.OffBlanksAndShows := by
  intro s hc hn
  have hloop : blankPixels (List.range s.cfg.pixelCount) (setPwr false s) =
      .next (setPix (blankFrame s.cfg) (setPwr false s)) := blankPixels_range (s := setPwr false s) hn
  have hexec : exec .off s = roleOff s := whenConfigured_of hc
  rw [hexec, roleOff, hloop]
  rfl

/-- Settles O19: the loop writes the pixels below `PIXEL_COUNT` alone, and `Show()` appends one event. -/
theorem offFrame : Obligations.OffFrame := by
  intro s t h
  obtain ⟨-, u, hu, rfl⟩ := execOff_next h
  have hread : ∀ k, pixRead (showFrame u) k = if k ∈ List.range s.cfg.pixelCount then some blankPixel else pixRead s k :=
    hu.read
  simp only [hread, List.mem_range]
  rw [hu.only_pix]
  simp +contextual

/-! ## The periods (R111 to R113) -/

theorem repeatExec_succ {i : Instr} {s t : State} (h : exec i s = .next t) (n : Nat) :
    repeatExec i (n + 1) s = repeatExec i n t := by
  rw [repeatExec, h, andThen_next]

/-- COLOR `n` times advances `PAL` by `n` modulo `PALETTE_COUNT`. -/
theorem repeatExec_color (n : Nat) {s : State} (hc : s.cfg.WF) (hp : s.pal < s.cfg.paletteCount) :
    repeatExec .color n s = .next (setPal ((s.pal + n) % s.cfg.paletteCount) s) := by
  induction n generalizing s with
  | zero =>
    rw [Nat.add_zero, Nat.mod_eq_of_lt hp]
    rfl
  | succ n ih =>
    have hp' : (s.pal + 1) % s.cfg.paletteCount < s.cfg.paletteCount := Nat.mod_lt _ (wf_paletteCount_pos hc)
    have hsum : ((s.pal + 1) % s.cfg.paletteCount + n) % s.cfg.paletteCount =
        (s.pal + (n + 1)) % s.cfg.paletteCount := by
      rw [Nat.mod_add_mod, Nat.add_assoc, Nat.add_comm 1 n]
    rw [repeatExec_succ (exec_color hc), ih (s := setPal ((s.pal + 1) % s.cfg.paletteCount) s) hc hp', ← hsum]
    rfl

/-- SPEED `n` times advances `SPD` by `n` modulo 5. -/
theorem repeatExec_speed (n : Nat) {s : State} (hc : s.cfg.WF) :
    repeatExec .speed n s = .next (setSpd (s.spd + Fin.ofNat 5 n) s) := by
  induction n generalizing s with
  | zero => simp [repeatExec, setSpd]
  | succ n ih =>
    have hsum : s.spd + 1 + Fin.ofNat 5 n = s.spd + Fin.ofNat 5 (n + 1) := by
      apply Fin.ext
      simp [Fin.val_add, Nat.add_assoc, Nat.add_comm 1 n]
    rw [repeatExec_succ (exec_speed hc), ih (s := setSpd (s.spd + 1) s) hc, ← hsum]
    rfl

theorem repeatExec_anim_two {s : State} (hc : s.cfg.WF) : repeatExec .anim 2 s = .next s := by
  cases hm : s.mode
  case pulse =>
    obtain ⟨hthere, -⟩ := animTogglesMode s hc
    obtain ⟨-, hback⟩ := animTogglesMode { s with mode := .movingPulse } hc
    rw [repeatExec_succ (hthere hm), repeatExec_succ (hback rfl), repeatExec, ← hm]
  case movingPulse =>
    obtain ⟨-, hthere⟩ := animTogglesMode s hc
    obtain ⟨hback, -⟩ := animTogglesMode { s with mode := .pulse } hc
    rw [repeatExec_succ (hthere hm), repeatExec_succ (hback rfl), repeatExec, ← hm]

/-- Settles O17: after its period each role has written back the value its register had. -/
theorem rolePeriods : Obligations.RolePeriods := by
  intro s hc hp
  refine ⟨?_, repeatExec_anim_two hc, ?_⟩
  · rw [repeatExec_color _ hc hp, Nat.add_mod_right, Nat.mod_eq_of_lt hp]
    rfl
  · have hfive : s.spd + Fin.ofNat 5 5 = s.spd := add_zero s.spd
    rw [repeatExec_speed 5 hc, hfive]
    rfl

/-! ## APPLY's effect on the animation state (R110, R149) -/

/-- The transition table read by role in the place of the command byte (R78, R110). -/
theorem commandEffect_some {b : Byte} {s t : State} (hc : s.cfg.WF) :
    CommandEffect (some b) s t ↔
      (if roleOf s.cfg b = .color then t.pal = (s.pal + 1) % s.cfg.paletteCount else t.pal = s.pal) ∧
      (if roleOf s.cfg b = .anim then t.mode ≠ s.mode else t.mode = s.mode) ∧
      (if roleOf s.cfg b = .speed then t.spd.val = (s.spd.val + 1) % 5 else t.spd = s.spd) ∧
      (if roleOf s.cfg b = .off then t.pwr = false
        else if roleOf s.cfg b = .on then t.pwr = true else t.pwr = s.pwr) := by
  obtain ⟨hcolor, hanim, hspeed, hoff, hon⟩ := roleOf_iff hc b
  simp only [CommandEffect, Option.some.injEq, hcolor, hanim, hspeed, hoff, hon]

/-- APPLYCMD follows the transition table, role by role. -/
theorem applyCommand_effect {b : Byte} {s t : State} (hc : s.cfg.WF) (h : applyCommand b s = .next t) :
    CommandEffect (some b) s t := by
  rw [commandEffect_some hc]
  obtain ⟨hr, rfl⟩ | ⟨hr, m, hm, rfl⟩ | ⟨hr, k, hk, rfl⟩ | ⟨hr, u, hu, rfl⟩ | ⟨hr, rfl⟩ | ⟨hr, rfl⟩ :=
    applyCommand_cases h
  · simp [hr]
  · simp [hr, hm]
  · simp [hr, hk]
  · rw [hu.only_pix]
    simp [hr]
  · simp [hr]
  · simp [hr]

/-- Without a command nothing of the animation state changes (R149). -/
theorem commandEffect_none (s : State) : CommandEffect none s s := by simp [CommandEffect]

/-- Settles O30: what is latched completes with its effect, and `CMDV <- 0`, `SEQ <- 3` touch no animation register. -/
theorem applyCompletes : Obligations.ApplyCompletes := by
  intro s hc hn
  have hdone : ∃ u, (if s.cmdv then applyCommand s.cmd s else .next s) = .next u ∧
      CommandEffect (if s.cmdv then some s.cmd else none) s u := by
    split
    · obtain ⟨u, hu⟩ := applyCommand_completes s.cmd hn
      exact ⟨u, hu, applyCommand_effect hc hu⟩
    · exact ⟨s, rfl, commandEffect_none s⟩
  obtain ⟨u, hu, heffect⟩ := hdone
  exact ⟨_, whenConfigured_eq_next.2 ⟨hc, andThen_eq_next.2 ⟨u, hu, rfl⟩⟩, rfl, rfl, heffect⟩

end Sys2Proof.Safety
end

section
/-! PROOFS. The waveform: the phase, the step index and the palette word of a pixel at a time, RENDER as an instruction,
and which instruction writes the timer and `TF`. -/

namespace Sys2Proof.Machine

/-! ## The phase (R129) -/

/-- `N` is whole periods, whole units and a rest: the decomposition RENDER works with. -/
theorem exists_eq_periods_add_phase (N : Int) {I : Nat} (hI : 0 < I) :
    ∃ k : Int, N = k * (14 * I) + ((phaseUnit N I).val * I + phaseRest N I) := by
  have hpos : (0 : Int) < ((periodUnits * I : Nat) : Int) := by exact_mod_cast Nat.mul_pos (by decide) hI
  have hticks : (phaseTicks N I : Int) = N % ((periodUnits * I : Nat) : Int) :=
    Int.toNat_of_nonneg (Int.emod_nonneg N hpos.ne')
  have hsplit : ((phaseUnit N I).val * I + phaseRest N I : Int) = phaseTicks N I := by
    exact_mod_cast Nat.div_add_mod' (phaseTicks N I) I
  have hperiod : ((periodUnits * I : Nat) : Int) = 14 * I := by norm_num [periodUnits]
  refine ⟨N / (14 * I), ?_⟩
  rw [hsplit, hticks, hperiod, Int.ediv_mul_add_emod]

/-- Settles O35: the decomposition of `N`, divided by `I`. -/
theorem phaseIsExact : Obligations.PhaseIsExact := by
  intro N I hI
  obtain ⟨k, hk⟩ := exists_eq_periods_add_phase N hI
  have hI' : (I : ℚ) ≠ 0 := by exact_mod_cast hI.ne'
  have hN : (N : ℚ) = k * (14 * I) + ((phaseUnit N I).val * I + phaseRest N I) := by exact_mod_cast hk
  refine ⟨Nat.mod_lt _ hI, k, ?_⟩
  rw [hN]
  field_simp

/-- The step index at an offset time of `q` whole units and a rest `r` within the first period (R129 to R131). -/
theorem stepAt_val {c : Config} {m : Mode} {spd : Fin speedTierCount} {tf i q r : Nat} (hq : q < 14)
    (hr : r < c.speedTicks[spd])
    (hN : offsetTime tf (pixelOffset m i) c.speedTicks[spd] = ((q * c.speedTicks[spd] + r : Nat) : Int)) :
    (stepAt c m spd tf i).val = stepNat q r := by
  have hlt : q * c.speedTicks[spd] + r < 14 * c.speedTicks[spd] := by
    calc q * c.speedTicks[spd] + r < (q + 1) * c.speedTicks[spd] := by rw [Nat.succ_mul]; omega
      _ ≤ 14 * c.speedTicks[spd] := Nat.mul_le_mul_right _ hq
  have hticks : phaseTicks ((q * c.speedTicks[spd] + r : Nat) : Int) c.speedTicks[spd] = q * c.speedTicks[spd] + r := by
    unfold phaseTicks
    rw [← Int.natCast_emod, Int.toNat_natCast, Nat.mod_eq_of_lt hlt]
  have hunit : (q * c.speedTicks[spd] + r) / c.speedTicks[spd] = q := by
    rw [Nat.mul_comm, Nat.mul_add_div (Nat.zero_lt_of_lt hr), Nat.div_eq_of_lt hr, Nat.add_zero]
  have hrest : (q * c.speedTicks[spd] + r) % c.speedTicks[spd] = r := by
    rw [Nat.mul_add_mod', Nat.mod_eq_of_lt hr]
  simp only [stepAt, spdRead, stepIndex, phaseUnit, phaseRest, hN, hticks, hunit, hrest]

/-- In Pulse mode the offset time is the time (R127, R128). -/
theorem offsetTime_pulse (tf i I : Nat) : offsetTime tf (pixelOffset .pulse i) I = tf := by
  simp [offsetTime, pixelOffset]

/-- In MovingPulse mode pixel `i` is `i` units behind (R127, R128). -/
theorem offsetTime_movingPulse (tf i I : Nat) :
    offsetTime tf (pixelOffset .movingPulse i) I = (tf : Int) - i * I := rfl

/-! ## The step index (R130, R131) -/

theorem stepNat_rising {q r : Nat} (h : q ≤ 7) : stepNat q r = q := if_pos h

theorem stepNat_falling_zero {q : Nat} (h : 8 ≤ q) : stepNat q 0 = 14 - q := by
  simp [stepNat, Nat.not_le.2 h]

theorem stepNat_falling_pos {q r : Nat} (h : 8 ≤ q) (hr : r ≠ 0) : stepNat q r = 13 - q := by
  simp [stepNat, Nat.not_le.2 h, hr]

/-- Settles O37: each sample lies `q` units and `r` ticks into the period. -/
theorem sequenceOverOnePeriod : Obligations.SequenceOverOnePeriod := by
  intro c spd i r _ hr
  have hstep : ∀ q ∈ List.range 14, (stepAt c .pulse spd (q * c.speedTicks[spd] + r) i).val = stepNat q r :=
    fun q hq => stepAt_val (List.mem_range.1 hq) hr (offsetTime_pulse _ _ _)
  rw [List.map_congr_left hstep]
  split
  · next h0 => subst h0; decide
  · next h0 => simp [List.range_succ, stepNat, h0]

end Sys2Proof.Machine

namespace Sys2Proof.Safety

open Sys2Proof.Machine

theorem documentStep_of_lt {x : ℚ} (h : x < 8) : documentStep x = x := if_pos h

theorem documentStep_of_le {x : ℚ} (h : 8 ≤ x) : documentStep x = 14 - x := by
  rw [documentStep, if_neg (not_lt.2 h)]
  ring

/-- Settles O34: rising, the floor drops the rest; falling, a rest other than 0 takes one step lower (D14). -/
theorem stepIndexIsFlooredDocumentStep : Obligations.StepIndexIsFlooredDocumentStep := by
  intro q r I hq hr
  have hI : (0 : ℚ) < I := by exact_mod_cast Nat.zero_lt_of_lt hr
  have hrest_nonneg : 0 ≤ (r : ℚ) / I := by positivity
  have hrest_lt : (r : ℚ) / I < 1 := (div_lt_one hI).2 (by exact_mod_cast hr)
  rw [eq_comm, Int.floor_eq_iff]
  obtain hle | hge : q ≤ 7 ∨ 8 ≤ q := by omega
  · have hq7 : (q : ℚ) ≤ 7 := by exact_mod_cast hle
    rw [stepNat_rising hle, documentStep_of_lt (by linarith), Int.cast_natCast]
    constructor <;> linarith
  · have hq8 : (8 : ℚ) ≤ q := by exact_mod_cast hge
    rw [documentStep_of_le (by linarith), Int.cast_natCast]
    obtain rfl | hne := eq_or_ne r 0
    · rw [stepNat_falling_zero hge, Nat.cast_sub (by omega)]
      constructor <;> simp
    · have hrest_pos : 0 < (r : ℚ) / I := div_pos (by exact_mod_cast Nat.pos_of_ne_zero hne) hI
      rw [stepNat_falling_pos hge hne, Nat.cast_sub (by omega)]
      constructor <;> push_cast <;> linarith

/-- What a rational is modulo 14 is the one number in [0, 14) that differs from it by whole periods (R129). -/
theorem toIcoMod_periods {y x : ℚ} {k : ℤ} (h0 : 0 ≤ x) (h14 : x < 14) (hy : y = 14 * k + x) :
    toIcoMod (by norm_num : (0 : ℚ) < 14) 0 y = x := by
  refine (toIcoMod_eq_iff _).2 ⟨⟨h0, by linarith⟩, k, ?_⟩
  rw [hy, zsmul_eq_mul]
  ring

/-- The model's phase `q + r/I` is the number in [0, 14) that `N/I` is modulo 14. -/
theorem eq_phase_of_eq_add {N : Int} {I : Nat} (hI : 0 < I) {x : ℚ} {k : ℤ} (h0 : 0 ≤ x) (h14 : x < 14)
    (hx : (N : ℚ) / I = 14 * k + x) : x = (phaseUnit N I).val + (phaseRest N I : ℚ) / I := by
  obtain ⟨hr, l, hl⟩ := phaseIsExact N I hI
  have hunit : ((phaseUnit N I).val : ℚ) ≤ 13 := by exact_mod_cast Nat.le_of_lt_succ (phaseUnit N I).isLt
  have hrest : (phaseRest N I : ℚ) / I < 1 := (div_lt_one (by exact_mod_cast hI)).2 (by exact_mod_cast hr)
  rw [← toIcoMod_periods h0 h14 hx]
  exact toIcoMod_periods (by positivity) (by linarith) hl

/-! ## The laws of RENDER (R129 to R138) -/

/-- The offset time on rationals, with the document's offset (R127, R128). -/
theorem cast_offsetTime (m : Mode) (tf i I : Nat) :
    ((offsetTime tf (pixelOffset m i) I : Int) : ℚ) = tf - (if m = .movingPulse then (i : ℚ) else 0) * I := by
  cases m <;> simp [offsetTime, pixelOffset]

/-- Settles O36: the phase of the document is the model's, and there the step index is the document's step. -/
theorem renderIsDocumentFormula : Obligations.RenderIsDocumentFormula := by
  intro c pal mode spd tf i x k hc h0 h14 hx
  rw [← cast_offsetTime] at hx
  have hI := wf_speedTicks_pos hc spd
  refine ⟨stepAt c mode spd tf i, ?_, renderWord_on c pal mode spd tf i⟩
  rw [eq_phase_of_eq_add hI h0 h14 hx]
  exact stepIndexIsFlooredDocumentStep _ _ _ (phaseUnit _ _).isLt (Nat.mod_lt _ hI)

/-- Settles O39: a period later the offset time is a period later. -/
theorem renderPeriodicInTime : Obligations.RenderPeriodicInTime := by
  intro c pal mode spd pwr tf i _
  refine renderWord_congr 1 ?_ pal pwr
  simp only [offsetTime]
  push_cast
  ring

/-- Settles O41: each shift in time and place moves the offset time by whole periods, or not at all. -/
theorem movingPulseShifts : Obligations.MovingPulseShifts := by
  intro c pal spd pwr tf i _
  refine ⟨renderWord_congr 0 ?_ pal pwr, renderWord_congr (-1) ?_ pal pwr, fun hle => renderWord_congr 0 ?_ pal pwr⟩
  all_goals simp only [offsetTime_movingPulse]
  · push_cast
    ring
  · push_cast
    ring
  · push_cast [hle]
    ring

/-! ## Frames, palettes and RENDER the instruction (R133, R134, R136) -/

/-- The word of a pixel in Pulse mode does not depend on the pixel (R136). -/
theorem renderWord_pulse (c : Config) (pal : Nat) (spd : Fin speedTierCount) (pwr : Bool) (tf i j : Nat) :
    renderWord c pal .pulse spd pwr tf i = renderWord c pal .pulse spd pwr tf j := rfl

/-- RENDER_ALL gives every pixel RENDER's word at the time it samples (R146). -/
theorem pixRead_of_execRenderAll {s t : State} (h : exec .renderAll s = .next t) {i : Nat} (hi : i < s.cfg.pixelCount) :
    pixRead t i = renderWord s.cfg s.pal s.mode s.spd s.pwr (s.t + ticksDue s) i := by
  obtain ⟨-, u, hu, rfl⟩ := execRenderAll_next h
  have hread := hu.read i
  rw [if_pos (List.mem_range.2 hi)] at hread
  exact hread

/-- Settles O40: in Pulse mode the offset is 0 for every pixel. -/
theorem pulseModeIsUniform : Obligations.PulseModeIsUniform := by
  refine ⟨renderWord_pulse, fun s t i j hm h hi hj => ?_⟩
  rw [pixRead_of_execRenderAll h hi, pixRead_of_execRenderAll h hj, hm]
  exact renderWord_pulse _ _ _ _ _ i j

/-- Settles O42: the palette has a row, and the step index is within it by its type. -/
theorem renderStaysInPalette : Obligations.RenderStaysInPalette := by
  intro c pal mode spd tf i hc hp
  have hrow : c.palrom[pal]? = some (c.palrom[pal]'(by rwa [wf_palrom_length hc])) := List.getElem?_eq_getElem _
  refine ⟨_, _, hrow, ?_, palRead_eq_some.2 ⟨_, hrow, rfl⟩⟩
  simp

/-- Settles O38: off is decided before the palette is read. -/
theorem blankWhenOff : Obligations.BlankWhenOff := fun _ _ _ _ _ _ => rfl

/-- On a 100-tick tier in Pulse mode, `q` hundred ticks show the step of `q` whole units. -/
theorem renderWord_hundreds {c : Config} (h100 : c.speedTicks[2] = 100) (pal i : Nat) {q : Nat} (hq : q < 14)
    {st : Fin stepCount} (hst : stepNat q 0 = st.val) :
    renderWord c pal .pulse 2 true (q * 100) i = palRead c pal st := by
  have h100' : c.speedTicks[(2 : Fin speedTierCount)] = 100 := h100
  have hstep : stepAt c .pulse 2 (q * 100) i = st :=
    Fin.ext ((stepAt_val hq (by omega) (by rw [offsetTime_pulse, h100', Nat.add_zero])).trans hst)
  rw [renderWord_on, hstep]

/-- Settles O43: 0, 7 and 8 whole units. -/
theorem sourceScenario : Obligations.SourceScenario := fun _ pal i h100 =>
  ⟨renderWord_hundreds (q := 0) h100 pal i (by decide) rfl, renderWord_hundreds (q := 7) h100 pal i (by decide) rfl,
    renderWord_hundreds (q := 8) h100 pal i (by decide) rfl⟩

/-- Settles O33: an existing palette gives RENDER a word, and `rgb` receives it. -/
theorem renderDeliversColour : Obligations.RenderDeliversColour := by
  intro s i hc hp
  obtain ⟨v, hv⟩ := renderWord_isSome hc hp s.mode s.spd s.pwr s.tf i
  exact ⟨v, hv, whenConfigured_eq_next.2 ⟨hc, andThen_eq_next.2 ⟨v, renderPixel_eq_next.2 hv, rfl⟩⟩⟩

/-! ## The timer and `TF` (R125, R153) -/

/-- No command role reads or writes the time (R113 says so of SPEED). -/
theorem applyCommand_keeps_time {c : Byte} {s t : State} (h : applyCommand c s = .next t) :
    t.t = s.t ∧ t.tf = s.tf := by
  obtain ⟨-, rfl⟩ | ⟨-, m, -, rfl⟩ | ⟨-, k, -, rfl⟩ | ⟨-, u, hu, rfl⟩ | ⟨-, rfl⟩ | ⟨-, rfl⟩ := applyCommand_cases h
  case inr.inr.inr.inl => rw [hu.only_pix]; exact ⟨rfl, rfl⟩
  all_goals exact ⟨rfl, rfl⟩

/-- Only RENDER_ALL samples the timer (R153, R172). -/
theorem exec_keeps_time {i : Instr} {s t : State} (hi : i ≠ .renderAll) (h : exec i s = .next t) :
    t.t = s.t ∧ t.tf = s.tf := by
  cases i
  case renderAll => exact absurd rfl hi
  case off => obtain ⟨-, u, hu, rfl⟩ := execOff_next h; rw [hu.only_pix]; exact ⟨rfl, rfl⟩
  case poll =>
    obtain ⟨-, rfl⟩ := execPoll_next h
    rw [latchDecoded_eq]
    exact ⟨rfl, rfl⟩
  case apply =>
    obtain ⟨-, u, ⟨-, rfl⟩ | ⟨-, hu⟩, rfl⟩ := execApply_next h
    · exact ⟨rfl, rfl⟩
    · have htime : u.t = s.t ∧ u.tf = s.tf := applyCommand_keeps_time hu
      exact htime
  case render => obtain ⟨-, v, -, rfl⟩ := execRender_next h; exact ⟨rfl, rfl⟩
  case color | anim | speed | on | nop | frame | repeatCode | illegalTrain | flush =>
    obtain ⟨-, ⟨⟩⟩ := whenConfigured_eq_next.1 h
    exact ⟨rfl, rfl⟩

/-- RENDER_ALL advances the timer by the ticks due and copies it to `TF` (R146; log 6). -/
theorem execRenderAll_time {s t : State} (h : exec .renderAll s = .next t) :
    t.t = s.t + ticksDue s ∧ t.tf = t.t := by
  obtain ⟨-, u, hu, rfl⟩ := execRenderAll_next h
  rw [hu.only_pix]
  exact ⟨rfl, rfl⟩

/-- Settles O57: RENDER_ALL moves the timer forward, and every other instruction keeps both registers. -/
theorem timeNeverRunsBackwards : Obligations.TimeNeverRunsBackwards := by
  intro i s t h
  by_cases hi : i = .renderAll
  · subst hi
    obtain ⟨ht, htf⟩ := execRenderAll_time h
    exact ⟨ht ▸ Nat.le_add_right _ _, fun _ => htf, fun hne => absurd rfl hne⟩
  · obtain ⟨ht, htf⟩ := exec_keeps_time hi h
    exact ⟨ht.ge, fun heq => absurd heq hi, fun _ => htf⟩

end Sys2Proof.Safety
end

section
/-! PROOFS. The main loop: what each of the four sequencer operations completes with and leaves (R146 to R150), that a step
always completes (R151), and one whole cycle (R145). -/

namespace Sys2Proof.Machine

/-- A loop over the pixels below `n` leaves every other index as it was. -/
theorem PixelsWritten.read_outside {n k : Nat} {f : Nat → Option Pixel} {s u : State}
    (h : PixelsWritten (List.range n) f s u) (hk : ¬ k < n) : pixRead u k = pixRead s k := by
  rw [h.read k, if_neg (by simpa using hk)]

/-! ## POLL (R147, R148) -/

theorem exec_poll {s : State} (hc : s.cfg.WF) :
    exec .poll s = .next (latchDecoded (decode s.cfg (captured s)) (afterCapture s)) :=
  whenConfigured_of hc

/-- A train decodes to one of the three pulse-train rows (R90). -/
theorem decodeTrain_isTrainRow (c : Config) (p : Train) :
    (∃ b0 b1 b2 b3, decodeTrain c p = .frame b0 b1 b2 b3) ∨ (∃ q, decodeTrain c p = .repeatCode q) ∨
      (∃ q, decodeTrain c p = .illegalTrain q) := by
  obtain ⟨-, h⟩ | ⟨-, -, h⟩ | ⟨-, -, -, h⟩ | ⟨-, -, -, -, bs, -, h⟩ := decodeTrain_cases c p
  · exact .inr (.inr ⟨p, h⟩)
  · exact .inr (.inl ⟨p, h⟩)
  · exact .inr (.inr ⟨p, h⟩)
  · exact .inl ⟨_, _, _, _, h⟩

/-- Settles O22: the row of the captured train latches what DECODE returns for it, and CapRead() leaves the
configuration that the gate reads. -/
theorem pollRunsTheReceivedTrain : Obligations.PollRunsTheReceivedTrain := by
  intro s
  rw [exec_trainRow (decodeTrain_isTrainRow s.cfg (captured s))]
  rfl

/-- Settles O23: POLL writes what `CapRead()` leaves and latches DECODE's result, by its two cases. -/
theorem pollCapturesAndLatches : Obligations.PollCapturesAndLatches := by
  intro s hc
  refine ⟨captured_length_le s, fun p r hrx => by rw [captured, arrivals_cons hrx], _, exec_poll hc, ?_⟩
  rw [latchDecoded_eq]
  refine ⟨rfl, rfl, rfl, rfl, rfl, rfl, rfl, rfl, rfl, rfl, fun b hb => ?_, fun hnone => ?_⟩
  · rw [hb]
    exact ⟨rfl, rfl⟩
  · rw [hnone]
    exact ⟨rfl, rfl⟩

/-! ## APPLY (R149) -/

theorem exec_apply {s : State} (hc : s.cfg.WF) :
    exec .apply s = andThen (if s.cmdv then applyCommand s.cmd s else .next s) fun t =>
      .next (setSeq .flush (clearCommand t)) :=
  whenConfigured_of hc

/-- Settles O29, by whether a command is latched; the latched byte's role is the row it decodes to. -/
theorem applyPerformsLatchedCommand : Obligations.ApplyPerformsLatchedCommand := by
  intro s hc
  rw [exec_apply hc, exec_decodeCommand, whenConfigured_of hc]
  constructor <;> intro hv <;> rw [hv] <;> rfl

/-- APPLY performs OFF, or it writes at most the animation registers, `CMDV` and `SEQ` (R110 to R116, R149). -/
theorem execApply_cases {s t : State} (h : exec .apply s = .next t) :
    (s.cmdv = true ∧ roleOf s.cfg s.cmd = .off ∧ ∃ u, PixelsWritten (List.range s.cfg.pixelCount)
      (fun _ => some blankPixel) (setPwr false s) u ∧ t = setSeq .flush (clearCommand (showFrame u))) ∨
    ((s.cmdv = true → roleOf s.cfg s.cmd ≠ .off) ∧
      ∃ p m k b, t = { s with pal := p, mode := m, spd := k, pwr := b, cmdv := false, seq := .flush }) := by
  obtain ⟨-, u, ⟨hv, rfl⟩ | ⟨hv, hu⟩, rfl⟩ := execApply_next h
  · exact .inr ⟨by simp [hv], _, _, _, _, rfl⟩
  obtain ⟨hr, rfl⟩ | ⟨hr, m, -, rfl⟩ | ⟨hr, k, -, rfl⟩ | ⟨hr, w, hw, rfl⟩ | ⟨hr, rfl⟩ | ⟨hr, rfl⟩ :=
    applyCommand_cases hu
  · exact .inr ⟨by simp [hr], _, _, _, _, rfl⟩
  · exact .inr ⟨by simp [hr], _, _, _, _, rfl⟩
  · exact .inr ⟨by simp [hr], _, _, _, _, rfl⟩
  · exact .inl ⟨hv, hr, w, hw, rfl⟩
  · exact .inr ⟨by simp [hr], _, _, _, _, rfl⟩
  · exact .inr ⟨by simp [hr], _, _, _, _, rfl⟩

theorem decodeCommand_eq_off {c : Config} {b : Byte} (h : roleOf c b = .off) : decodeCommand c b = .off := by
  simp [decodeCommand, h]

/-- Settles O31: OFF alone reaches the pixels and the display, and its loop stays below `PIXEL_COUNT`. -/
theorem applyFrame : Obligations.ApplyFrame := by
  intro s t h
  obtain ⟨hv, hr, u, hu, rfl⟩ | ⟨-, p, m, k, b, rfl⟩ := execApply_cases h
  · have hoff : ¬ (decodeCommand s.cfg s.cmd ≠ .off ∨ s.cmdv = false) := by simp [hv, decodeCommand_eq_off hr]
    refine ⟨?_, ?_, ?_, ?_, ?_, ?_, ?_, ?_, ?_, fun hno => absurd hno hoff, fun _ hk => hu.read_outside hk⟩ <;>
      rw [hu.only_pix] <;> rfl
  · exact ⟨rfl, rfl, rfl, rfl, rfl, rfl, rfl, rfl, rfl, fun _ => ⟨rfl, rfl, fun _ => rfl⟩, fun _ _ => rfl⟩

/-! ## FLUSH (R150) -/

theorem exec_flush {s : State} (hc : s.cfg.WF) : exec .flush s = .next (setSeq .renderAll (showFrame s)) :=
  whenConfigured_of hc

/-- Settles O32: FLUSH is `Show()` and `SEQ <- 0`. -/
theorem flushShowsBuffer : Obligations.FlushShowsBuffer := fun _ hc => exec_flush hc

end Sys2Proof.Machine

namespace Sys2Proof.Safety

open Sys2Proof.Machine

/-! ## RENDER_ALL (R146) -/

/-- What RENDER_ALL leaves: the time latched, `PIX` the frame of that time, `SEQ <- 1` (R146). -/
def drawn (s : State) : State := setSeq .poll (setPix (frameOf s (s.t + ticksDue s)) (latchTime s))

/-- RENDER_ALL completes: the palette exists, and `PIX` has the pixels that the loop writes. -/
theorem exec_renderAll {s : State} (hc : s.cfg.WF) (hp : s.pal < s.cfg.paletteCount) (hn : Memory.wf s.cfg s.pix) :
    exec .renderAll s = .next (drawn s) := by
  have hin : ∀ k ∈ List.range s.cfg.pixelCount, k < s.pix.length := fun k hk => by rwa [hn, ← List.mem_range]
  obtain ⟨u, hu⟩ := renderPixels_completes (s := latchTime s) hc hp hin
  have hexec : execRenderAll s = .next (setSeq .poll u) :=
    whenConfigured_eq_next.2 ⟨hc, andThen_eq_next.2 ⟨u, hu, rfl⟩⟩
  exact hexec.trans (congrArg _ (execRenderAll_eq_setPix_frameOf hn hexec))

/-- Settles O27: what RENDER_ALL leaves is `drawn s`, whose pixels are RENDER's words at the one sample. -/
theorem renderAllDrawsOneFrame : Obligations.RenderAllDrawsOneFrame := by
  intro s hc hp hn
  have hexec : exec .renderAll s = .next (drawn s) := exec_renderAll hc hp hn
  exact ⟨drawn s, hexec, rfl, Nat.le_add_right _ _, fun d ds hclk => congrArg (s.t + ·) (ticksDue_cons hclk),
    rfl, rfl, rfl, rfl, rfl, frameOf_wf s _, fun i hi => pixRead_of_execRenderAll hexec hi⟩

/-- Settles O28: besides the latched time and `SEQ`, the loop writes `PIX` alone, and there below `PIXEL_COUNT`. -/
theorem renderAllFrame : Obligations.RenderAllFrame := by
  intro s t h
  obtain ⟨-, u, hu, rfl⟩ := execRenderAll_next h
  refine ⟨?_, ?_, ?_, ?_, ?_, ?_, ?_, ?_, ?_, ?_, ?_, ?_, ?_, fun _ hk => hu.read_outside hk⟩ <;>
    rw [hu.only_pix] <;> rfl

/-! ## A step under the invariant (R151, R152, R160) -/

/-- Settles O50: under the invariant each operation has what it requires: POLL and FLUSH the configuration, APPLY also
pixels to blank, RENDER_ALL also a palette. -/
theorem stepAlwaysCompletes : Obligations.StepAlwaysCompletes := by
  intro s h
  rw [step_eq]
  cases s.seq
  case renderAll => exact ⟨_, exec_renderAll h.configured h.palInRange h.pixSized⟩
  case poll => exact ⟨_, exec_poll h.configured⟩
  case apply =>
    obtain ⟨t, ht, -⟩ := applyCompletes s h.configured h.pixSized
    exact ⟨t, ht⟩
  case flush => exact ⟨_, exec_flush h.configured⟩

/-! ## One whole cycle (R145, R154, R155) -/

/-- The command that waits for APPLY (R28, R149). -/
def latched (s : State) : Option Byte := if s.cmdv then some s.cmd else none

/-- POLL's decode half makes DECODE's result wait (R148). -/
theorem latched_latchDecoded (r : Option Byte) (s : State) : latched (latchDecoded r s) = r := by
  cases r <;> rfl

theorem latched_eq_some {s : State} {b : Byte} : latched s = some b ↔ s.cmdv = true ∧ s.cmd = b := by
  simp [latched]

/-- APPLY of OFF blanks `PIX` and shows it; APPLY of anything else neither writes `PIX` nor shows (R114, R149). -/
theorem execApply_shows {s t : State} (hn : Memory.wf s.cfg s.pix) (h : exec .apply s = .next t) :
    (latched s = some s.cfg.codeOff → t.pix = blankFrame s.cfg ∧ t.shows = s.shows ++ [blankFrame s.cfg]) ∧
    (latched s ≠ some s.cfg.codeOff → t.pix = s.pix ∧ t.shows = s.shows) := by
  obtain ⟨hc, -⟩ := execApply_next h
  obtain ⟨-, -, -, hoff, -⟩ := roleOf_iff hc s.cmd
  rw [Ne, latched_eq_some, hoff]
  obtain ⟨hv, hr, u, hu, rfl⟩ | ⟨hr, p, m, k, b, rfl⟩ := execApply_cases h
  · refine ⟨fun _ => ?_, fun hno => absurd ⟨hv, hr⟩ hno⟩
    rw [eq_setPix_blankFrame (s := setPwr false s) hu hn]
    exact ⟨rfl, rfl⟩
  · exact ⟨fun ⟨hv, hr'⟩ => absurd hr' (hr hv), fun _ => ⟨rfl, rfl⟩⟩

/-- The second half of a cycle: APPLY performs the waiting command, and FLUSH shows the `PIX` that APPLY leaves
(R149, R150, R154, R155). -/
theorem apply_then_flush {s : State} (hc : s.cfg.WF) (hn : Memory.wf s.cfg s.pix) :
    ∃ u t, exec .apply s = .next u ∧ exec .flush u = .next t ∧ t.seq = .renderAll ∧ t.cmdv = false ∧ t.tf = s.tf ∧
      CommandEffect (latched s) s t ∧
      (latched s = some s.cfg.codeOff → t.shows = s.shows ++ [blankFrame s.cfg, blankFrame s.cfg]) ∧
      (latched s ≠ some s.cfg.codeOff → t.shows = s.shows ++ [s.pix]) := by
  obtain ⟨u, hu, hcmdv, -, heffect⟩ := applyCompletes s hc hn
  obtain ⟨hcfg, -, htf, -⟩ := applyFrame s u hu
  obtain ⟨hoff, hother⟩ := execApply_shows hn hu
  refine ⟨u, _, hu, exec_flush (by rwa [hcfg]), rfl, hcmdv, htf, heffect, fun h => ?_, fun h => ?_⟩
  · obtain ⟨hpix, hshows⟩ := hoff h
    simp [hpix, hshows]
  · obtain ⟨hpix, hshows⟩ := hother h
    simp [hpix, hshows]

/-- Four operations that complete one after the other, from RENDER_ALL on, are a cycle of four steps (R145). -/
theorem run_cycle {s s₁ s₂ s₃ s₄ : State} (hq : s.seq = .renderAll) (h₁ : exec .renderAll s = .next s₁)
    (h₂ : exec .poll s₁ = .next s₂) (h₃ : exec .apply s₂ = .next s₃) (h₄ : exec .flush s₃ = .next s₄) :
    Host.Core.run Sys2Proof.core 4 s = .next s₄ := by
  have step₁ : step s = .next s₁ := by rw [step_eq, hq]; exact h₁
  have step₂ : step s₁ = .next s₂ := by rw [step_eq, step_seq step₁, hq]; exact h₂
  have step₃ : step s₂ = .next s₃ := by rw [step_eq, step_seq step₂, step_seq step₁, hq]; exact h₃
  have step₄ : step s₃ = .next s₄ := by rw [step_eq, step_seq step₃, step_seq step₂, step_seq step₁, hq]; exact h₄
  rw [run_succ step₁, run_succ step₂, run_succ step₃, run_succ step₄]
  rfl

/-- Settles O51: RENDER_ALL draws the frame of the state it starts from, POLL leaves it in `PIX` and makes the train's
command wait, and APPLY and FLUSH do the rest. -/
theorem cycleShowsOneFrame : Obligations.CycleShowsOneFrame := by
  intro s h hq
  generalize hr : decode s.cfg (captured (latchTime s)) = r
  have hrender : exec .renderAll s = .next (drawn s) := exec_renderAll h.configured h.palInRange h.pixSized
  have hpoll : exec .poll (drawn s) = .next (latchDecoded r (afterCapture (drawn s))) := by
    rw [← hr]
    exact exec_poll h.configured
  have hlatched : latched (latchDecoded r (afterCapture (drawn s))) = r := latched_latchDecoded r _
  have hrest := apply_then_flush (s := latchDecoded r (afterCapture (drawn s)))
    (by rw [latchDecoded_eq]; exact h.configured) (by rw [latchDecoded_eq]; exact frameOf_wf s (s.t + ticksDue s))
  rw [hlatched, latchDecoded_eq] at hrest
  rw [latchDecoded_eq] at hpoll
  obtain ⟨u, t, happly, hflush, hseq, hcmdv, htf, heffect, hoff, hother⟩ := hrest
  have hlater : s.t ≤ t.tf := htf ▸ Nat.le_add_right s.t (ticksDue s)
  refine ⟨t, run_cycle hq hrender hpoll happly hflush, hseq, hcmdv, hlater, heffect, hoff, fun hne => ?_⟩
  rw [hother hne, htf]
  rfl

end Sys2Proof.Safety
end

section
/-! PROOFS. What stands in the place of exceptions: the soft failure, whose cause leaves no trace (R161, R167); and the dark
display of a block that is off (R177). -/

namespace Sys2Proof.Machine

/-! ## The soft failure (R161, R167) -/

/-- POLL of a train without a command is the soft failure on what `CapRead()` leaves (R167). -/
theorem exec_poll_of_decode_eq_none {s : State} (h : decode s.cfg (captured s) = none) :
    exec .poll s = whenConfigured s (.next (softFailure (afterCapture s))) := by
  have hpoll : exec .poll s = whenConfigured s (.next (latchDecoded (decode s.cfg (captured s)) (afterCapture s))) := rfl
  rw [hpoll, h]
  rfl

/-- When nothing arrives, `CapRead()` returns what a buffer of admissible size holds (R51). -/
theorem captured_eq_cap {s : State} (harr : arrivals s = []) (hcap : s.cap.length ≤ s.cfg.captureMax) :
    captured s = s.cap := by
  rw [captured, harr, List.append_nil, List.take_of_length_le hcap]

/-- With nothing more to arrive, a held train that is no command does not occur in the state POLL leaves (R161). -/
theorem exec_poll_of_held {s : State} {p : Train} (hlen : p.length ≤ s.cfg.captureMax) (hnone : decode s.cfg p = none) :
    exec .poll { s with cap := p, rx := [] :: s.rx } =
      whenConfigured s (.next (softFailure { s with cap := [] })) := by
  have hcapt : captured { s with cap := p, rx := [] :: s.rx } = p := captured_eq_cap (arrivals_cons rfl) hlen
  exact exec_poll_of_decode_eq_none (by rw [hcapt]; exact hnone)

/-- Settles O9: POLL of either train ends in the same soft failure. -/
theorem softFailureCausesIndistinguishable : Obligations.SoftFailureCausesIndistinguishable :=
  fun _ _ _ hlen hlen' hnone hnone' => (exec_poll_of_held hlen hnone).trans (exec_poll_of_held hlen' hnone').symm

/-- Settles O24: `CapRead()` touches no register, and the soft failure `CMDV` and `SEQ` alone. -/
theorem failingPollWritesOnlyCmdvAndSeq : Obligations.FailingPollWritesOnlyCmdvAndSeq := by
  intro s hc hnone
  have hpoll : exec .poll s = .next (softFailure (afterCapture s)) :=
    (exec_poll_of_decode_eq_none hnone).trans (whenConfigured_of hc)
  exact ⟨_, hpoll, rfl, rfl, rfl, rfl, rfl, rfl, rfl, rfl, rfl, rfl, rfl⟩

end Sys2Proof.Machine

namespace Sys2Proof.Safety

open Sys2Proof.Machine

/-! ## Off means dark (R155, R177) -/

/-- Settles O54: RENDER_ALL and POLL show nothing; APPLY shows nothing or, performing OFF, the blank frame; FLUSH shows
`PIX`, which the invariant keeps dark. -/
theorem offStaysDark : Obligations.OffStaysDark := by
  intro s t h hoff ht
  rw [step_eq] at ht
  cases hq : s.seq <;> rw [hq] at ht
  case renderAll =>
    rw [execRenderAll_eq_setPix_frameOf h.pixSized ht]
    exact .inl rfl
  case poll =>
    obtain ⟨-, rfl⟩ := execPoll_next ht
    rw [latchDecoded_eq]
    exact .inl rfl
  case apply =>
    obtain ⟨hblank, hother⟩ := execApply_shows h.pixSized ht
    by_cases hcmd : latched s = some s.cfg.codeOff
    · exact .inr (hblank hcmd).2
    · exact .inl (hother hcmd).2
  case flush =>
    have hdark : s.pix = blankFrame s.cfg := h.darkWhenOff hoff (by simp [hq])
    obtain ⟨-, rfl⟩ := execFlush_next ht
    exact .inr (congrArg (fun f => s.shows ++ [f]) hdark)

end Sys2Proof.Safety
end

section
/-! PROOFS. Reset and what it leaves open: R181's values, the first frame, and that the contents R181 leaves unspecified
reach no Show event (U12). -/

namespace Sys2Proof.Safety

open Sys2Proof.Machine

/-! ## The values and the first frame after reset (R181) -/

/-- Settles O44: `State.resetWith` copies the four RESET_ parameters, which TC1 leaves at their defaults. -/
theorem resetValues : Obligations.ResetValues :=
  ⟨fun _ => ⟨rfl, rfl, rfl, rfl, rfl, rfl, rfl, rfl⟩, rfl, rfl, rfl, rfl⟩

/-- Within the first time unit Pulse mode shows step 0 (R127 to R131). -/
theorem renderWord_pulse_first_unit {c : Config} {spd : Fin speedTierCount} {tf : Nat} (h : tf < c.speedTicks[spd])
    (pal i : Nat) : renderWord c pal .pulse spd true tf i = palRead c pal 0 := by
  have hstep : (stepAt c .pulse spd tf i).val = stepNat 0 tf :=
    stepAt_val (by decide) h (by rw [offsetTime_pulse, Nat.zero_mul, Nat.zero_add])
  have hzero : stepAt c .pulse spd tf i = 0 := Fin.ext (hstep.trans (stepNat_rising (by decide)))
  rw [renderWord_on, hzero]

/-- Settles O53: the first step is RENDER_ALL on the reset registers, whose `T` = 0 puts it in the first unit. -/
theorem firstFrameAfterReset : Obligations.FirstFrameAfterReset := by
  intro s h hmode hpwr hfirst
  have hexec : exec .renderAll s = .next (drawn s) := exec_renderAll h.configured h.inv.palInRange h.pixSized
  refine ⟨drawn s, by rw [step_eq, h.seq]; exact hexec, fun i hi => ?_⟩
  rw [pixRead_of_execRenderAll hexec hi, h.pal, h.mode, hmode, h.spd, h.pwr, hpwr, h.t, Nat.zero_add]
  exact renderWord_pulse_first_unit hfirst _ i

/-! ## Two machines that no Show event tells apart (U12) -/

/-- The same state but for `CMD`, the display frame and `rgb`: what the second clause of `ShowAlike` leaves free. -/
def SameButStale (s s' : State) : Prop := s' = { s with cmd := s'.cmd, disp := s'.disp, rgb := s'.rgb }

theorem SameButStale.unspecified {s s' : State} (h : SameButStale s s') : SameButUnspecified s s' := by
  rw [h]
  rfl

/-- At the start of a cycle both clauses leave at most the unspecified contents free. -/
theorem ShowAlike.unspecified {s s' : State} (h : ShowAlike s s') : SameButUnspecified s s' := by
  obtain ⟨-, hsame⟩ | ⟨hsame, -⟩ := h
  · exact hsame
  · exact SameButStale.unspecified hsame

/-- Later in the cycle only the second clause is left. -/
theorem ShowAlike.stale {s s' : State} (h : ShowAlike s s') (hq : s.seq ≠ .renderAll) :
    SameButStale s s' ∧ (s.cmdv = true → s'.cmd = s.cmd) :=
  h.resolve_left fun hstart => hq hstart.1

theorem ShowAlike.seq_eq {s s' : State} (h : ShowAlike s s') : s'.seq = s.seq := by
  rw [h.unspecified]

theorem ShowAlike.shows_eq {s s' : State} (h : ShowAlike s s') : s'.shows = s.shows := by
  rw [h.unspecified]

/-- When no command is latched, `CMD` may hold anything. -/
theorem ShowAlike.of_cmdv_eq_false {s s' : State} (hsame : SameButStale s s') (hv : s.cmdv = false) : ShowAlike s s' :=
  .inr ⟨hsame, fun hv' => absurd (hv.symm.trans hv') (by decide)⟩

/-! ## The four operations on such a pair -/

/-- RENDER_ALL overwrites `TF` and the whole of `PIX`, and reads neither (R146). -/
theorem execRenderAll_showAlike {s s' t t' : State} (h : Inv s) (h' : Inv s') (hq : s.seq = .renderAll)
    (hsame : SameButUnspecified s s') (ht : execRenderAll s = .next t) (ht' : execRenderAll s' = .next t') :
    ShowAlike t t' := by
  have hv : s.cmdv = false := h.cmdv_eq_false (by simp [hq])
  rw [execRenderAll_eq_setPix_frameOf h.pixSized ht, execRenderAll_eq_setPix_frameOf h'.pixSized ht', hsame]
  exact .of_cmdv_eq_false rfl hv

/-- POLL captures the same train in both, and overwrites `CMD` where it makes it valid (R147, R148). -/
theorem execPoll_showAlike {s s' t t' : State} (hsame : SameButStale s s') (ht : execPoll s = .next t)
    (ht' : execPoll s' = .next t') : ShowAlike t t' := by
  obtain ⟨-, rfl⟩ := execPoll_next ht
  obtain ⟨-, rfl⟩ := execPoll_next ht'
  have hcaptured : decode s'.cfg (captured s') = decode s.cfg (captured s) := by rw [hsame]; rfl
  rw [hcaptured, hsame]
  cases decode s.cfg (captured s) with
  | none => exact .of_cmdv_eq_false rfl rfl
  | some c => exact .inr ⟨rfl, fun _ => rfl⟩

/-- What `offBlanksAndShows` says of OFF, for the role that APPLYCMD runs in its place (R110, R114). -/
theorem roleOff_eq {s : State} (hc : s.cfg.WF) (hn : Memory.wf s.cfg s.pix) :
    roleOff s = .next (showFrame (setPix (blankFrame s.cfg) (setPwr false s))) :=
  (whenConfigured_of hc).symm.trans (offBlanksAndShows s hc hn)

/-- No role reads `CMD`, the display frame or `rgb`; OFF alone writes one of them, the display frame (R110 to R116). -/
theorem applyCommand_keeps_sameButStale {b : Byte} {s s' u u' : State} (hc : s.cfg.WF) (hn : Memory.wf s.cfg s.pix)
    (hsame : SameButStale s s') (hu : applyCommand b s = .next u) (hu' : applyCommand b s' = .next u') :
    SameButStale u u' := by
  have hcfg : s'.cfg = s.cfg := by rw [hsame]
  have hc' : s'.cfg.WF := by rw [hcfg]; exact hc
  have hn' : Memory.wf s'.cfg s'.pix := by rw [hsame]; exact hn
  rw [applyCommand] at hu hu'
  rw [hcfg] at hu'
  cases hr : roleOf s.cfg b <;> simp only [hr] at hu hu'
  case' off =>
    rw [roleOff_eq hc hn] at hu
    rw [roleOff_eq hc' hn'] at hu'
  all_goals
    cases hu
    cases hu'
    rw [hsame]
    rfl

/-- APPLY reads `CMD` only where it is valid, and leaves it so no longer (R149). -/
theorem execApply_showAlike {s s' t t' : State} (hn : Memory.wf s.cfg s.pix) (hsame : SameButStale s s')
    (hcmd : s.cmdv = true → s'.cmd = s.cmd) (ht : execApply s = .next t) (ht' : execApply s' = .next t') :
    ShowAlike t t' := by
  obtain ⟨hc, u, hu, rfl⟩ := execApply_next ht
  obtain ⟨-, u', hu', rfl⟩ := execApply_next ht'
  have hcmdv : s'.cmdv = s.cmdv := by rw [hsame]
  have hdone : SameButStale u u' := by
    obtain ⟨hv, rfl⟩ | ⟨hv, hu⟩ := hu
    · obtain rfl : u' = s' := by simpa [hcmdv, hv] using hu'
      exact hsame
    · have happly' : applyCommand s.cmd s' = .next u' := by simpa [hcmdv, hv, hcmd hv] using hu'
      exact applyCommand_keeps_sameButStale hc hn hsame hu happly'
  rw [hdone]
  exact .of_cmdv_eq_false rfl rfl

/-- FLUSH shows the `PIX` that both have, and overwrites the display frame (R150). -/
theorem execFlush_showAlike {s s' t t' : State} (hv : s.cmdv = false) (hsame : SameButStale s s')
    (ht : execFlush s = .next t) (ht' : execFlush s' = .next t') : ShowAlike t t' := by
  obtain ⟨-, rfl⟩ := execFlush_next ht
  obtain ⟨-, rfl⟩ := execFlush_next ht'
  rw [hsame]
  exact .of_cmdv_eq_false rfl hv

/-! ## A step and a run of each machine -/

/-- Both machines run the operation of the one `SEQ` they have, and each operation keeps them alike. -/
theorem step_keeps_showAlike {s s' t t' : State} (h : Inv s) (h' : Inv s') (halike : ShowAlike s s')
    (ht : step s = .next t) (ht' : step s' = .next t') : ShowAlike t t' := by
  rw [step_eq] at ht ht'
  rw [halike.seq_eq] at ht'
  cases hq : s.seq <;> rw [hq] at ht ht'
  case renderAll => exact execRenderAll_showAlike h h' hq halike.unspecified ht ht'
  case poll =>
    obtain ⟨hsame, -⟩ := halike.stale (by simp [hq])
    exact execPoll_showAlike hsame ht ht'
  case apply =>
    obtain ⟨hsame, hcmd⟩ := halike.stale (by simp [hq])
    exact execApply_showAlike h.pixSized hsame hcmd ht ht'
  case flush =>
    obtain ⟨hsame, -⟩ := halike.stale (by simp [hq])
    exact execFlush_showAlike (h.cmdv_eq_false (by simp [hq])) hsame ht ht'

/-- Settles O60: a step of each keeps the machines alike, and alike machines have the same Show events. -/
theorem stepKeepsShowAlike : Obligations.StepKeepsShowAlike := by
  intro s s' t t' h h' halike ht ht'
  have hnext : ShowAlike t t' := step_keeps_showAlike h h' halike ht ht'
  exact ⟨hnext, hnext.shows_eq.symm⟩

/-- Any number of steps of each keeps the machines alike: under the invariant every step completes and keeps it. -/
theorem run_keeps_showAlike (n : Nat) {s s' t t' : State} (h : Inv s) (h' : Inv s') (halike : ShowAlike s s')
    (ht : Host.Core.run Sys2Proof.core n s = .next t) (ht' : Host.Core.run Sys2Proof.core n s' = .next t') :
    ShowAlike t t' := by
  induction n generalizing s s' with
  | zero =>
    cases ht
    cases ht'
    exact halike
  | succ n ih =>
    obtain ⟨u, hu⟩ := stepAlwaysCompletes s h
    obtain ⟨u', hu'⟩ := stepAlwaysCompletes s' h'
    rw [run_succ hu] at ht
    rw [run_succ hu'] at ht'
    exact ih (stepKeepsInvariant s u h hu) (stepKeepsInvariant s' u' h' hu') (step_keeps_showAlike h h' halike hu hu')
      ht ht'

/-- Settles O52: at the start of a cycle the two machines are alike by the first clause, and they stay alike. -/
theorem unspecifiedContentsNeverShown : Obligations.UnspecifiedContentsNeverShown := by
  intro s s' n t t' h h' hq hsame ht ht'
  have halike : ShowAlike s s' := .inl ⟨hq, hsame⟩
  exact (run_keeps_showAlike n h h' halike ht ht').shows_eq.symm

end Sys2Proof.Safety
end

section
/-! PROOFS. The pulse-train rows as whole next states (R148, R167), and the step that runs a placed instruction. -/

namespace Sys2Proof.Machine

/-! ## The pulse-train rows (R148, R167; log 9) -/

theorem exec_trainRow_of_wf {i : Instr} {s : State} (hc : s.cfg.WF)
    (hi : (∃ b0 b1 b2 b3, i = .frame b0 b1 b2 b3) ∨ (∃ p, i = .repeatCode p) ∨ (∃ p, i = .illegalTrain p)) :
    exec i s = .next { s with cmdv := (commandOf i).isSome, cmd := (commandOf i).getD s.cmd, seq := .apply } := by
  rw [exec_trainRow hi, whenConfigured_of hc, latchDecoded_eq]

/-- Settles O20: a row latches what DECODE returns for it, which is `Command(B[2])` for FRAME alone. -/
theorem trainRowsLatchDecodeResult : Obligations.TrainRowsLatchDecodeResult := fun _ hc =>
  ⟨fun b0 b1 b2 b3 => exec_trainRow_of_wf hc (.inl ⟨b0, b1, b2, b3, rfl⟩),
    fun p => exec_trainRow_of_wf hc (.inr (.inl ⟨p, rfl⟩)),
    fun p => exec_trainRow_of_wf hc (.inr (.inr ⟨p, rfl⟩))⟩

/-! ## Placed instructions (log 13) -/

/-- A placed train is all that `CapRead()` returns: nothing arrives behind it (R51). -/
theorem captured_placeCode_train {p : Train} {s : State} (hlen : p.length ≤ s.cfg.captureMax) :
    captured (placeCode (.train p) s) = p :=
  captured_eq_cap (arrivals_cons rfl) hlen

/-- Settles O47: placing sets `SEQ` to the operation that reads the code's form, and each operation runs what it
reads. -/
theorem stepRunsTheDecodedInstruction : Obligations.StepRunsTheDecodedInstruction := by
  intro s hc
  refine ⟨fun w => step_eq _, fun b => ?byte, fun p hlen => ?train⟩
  case byte =>
    obtain ⟨-, hlatched⟩ := applyPerformsLatchedCommand (placeCode (.cmd8 b) s) hc
    exact (step_eq _).trans (hlatched rfl)
  case train =>
    have hpoll := pollRunsTheReceivedTrain (placeCode (.train p) s)
    rw [captured_placeCode_train hlen] at hpoll
    exact (step_eq _).trans hpoll

end Sys2Proof.Machine
end
